-- ==== Sys2Proof/Word.lean ====
section
/-! DEFINITION. The widths of the block: byte lane, limb, 256-bit value, and the four-limb register (rules R7, R10).

Only the types stand here; how a limb array denotes a number is in `Machine/Operands.lean`. -/

namespace Sys2Proof

/-- One byte lane of the bus (rule R43). -/
abbrev Byte := BitVec 8

/-- A limb, a window register and a command word: 64 bits (rules R7, R8, R59). -/
abbrev Word := BitVec 64

/-- A latched operand, `u256` (rules R11, R33). -/
abbrev U256 := BitVec 256

/-- A 256-bit register held as four 64-bit limbs, `l0` least significant (rules R7, R10, R16 to R18). -/
@[ext] structure Limbs4 where
  l0 : Word
  l1 : Word
  l2 : Word
  l3 : Word
  deriving DecidableEq, Repr

end Sys2Proof
end

