-- ==== Sys2Proof/Config.lean ====
section
/-! DEFINITION. What one build of the block fixes (`P`, `BASE`) and the values the spec leaves free (the operand latches
and the latched opcode after a reset).

Every constant below rests on an `opaque` with no body, so no proof can learn its value: a statement about the model
holds for every admissible modulus, every admissible base address and every content of the latches after a reset. -/

namespace Sys2Proof.Config

/-- The constraint of rule R5 on the modulus. -/
abbrev Admissible (p : Nat) : Prop := Nat.Prime p ∧ 3 ≤ p ∧ p < 2 ^ 256

/-- The build's choice of modulus; the spec gives no value (rule R5, decision D2, note N1). Log entry 1. -/
opaque modulusChoice : Nat

/-- `P`, the modulus (rule R5): the build's choice where that meets the constraint of rule R5. A choice outside the
constraint is no build of this hardware; `3`, itself admissible, then stands in its place, so that `P` ranges over
exactly the moduli rule R5 admits. Log entry 1. -/
def P : Nat := if Admissible modulusChoice then modulusChoice else 3

/-- The platform's choice of where the window lies (rule R8, decision D31). Log entry 2. -/
opaque baseChoice : Nat

/-- `BASE`, the window's physical base address: any multiple of 256 (rule R8). Log entry 2. -/
def BASE : Nat := 256 * baseChoice

/-- FREE VALUE: what the operand latch `LA` holds after the `n`-th reset (rules R33, R141: any value). Log entry 3. -/
opaque resetLA : Nat → U256

/-- FREE VALUE: what the operand latch `LB` holds after the `n`-th reset (rules R33, R141: any value). Log entry 3. -/
opaque resetLB : Nat → U256

/-- FREE VALUE: what the opcode latch `LOP` holds after the `n`-th reset (rules R34, R141: any value). Log entry 3. -/
opaque resetLOP : Nat → BitVec 4

end Sys2Proof.Config
end

