-- ==== Sys2Proof/Syntax.lean ====
section
/-! DEFINITION. The command set `FPCORE-CMD v1` (rule R61), a host's bus transaction (rule R68) and the host-script
notation (rule R70). -/

namespace Sys2Proof

/-- The seven commands, one constructor for each row of the opcode table (rules R61, R69). A command has no operands:
they are the contents of registers A and B when it is accepted (rules R59, R62). -/
inductive Instr where
  | fload
  | fadd
  | fsub
  | fmul
  | fneg
  | finv
  | feq
  deriving DecidableEq, Repr

/-- The direction of a bus access (rule R68). -/
inductive Dir where
  | read
  | write
  deriving DecidableEq, Repr

/-- A bus transaction `(dir, off, size, data)` (rule R68). `off` is the window offset, `size` the byte count of the
access; `data` matters only for a write. -/
structure Transaction where
  dir  : Dir
  off  : BitVec 8
  size : Nat
  data : Word
  deriving DecidableEq, Repr

/-- The value a host script writes: a numeral, or one of the host's own variables (rules R70, R71). -/
inductive HostValue where
  | lit (w : Word)
  | var (x : Nat)
  deriving DecidableEq, Repr

/-- One line of a host script (rule R70). Variables and labels are numbered. -/
inductive HostOp where
  | w (off : BitVec 8) (value : HostValue)
  | r (off : BitVec 8) (x : Nat)
  | cmd (i : Instr)
  | label (l : Nat)
  | bnz (x : Nat) (mask : Word) (l : Nat)
  | j (l : Nat)
  deriving DecidableEq, Repr

/-- A host script (rule R70). -/
abbrev Script := List HostOp

end Sys2Proof
end

