-- ==== Sys2Proof/Machine/State.lean ====
section
/-! DEFINITION. The state of the block (rules R15, R41), the inputs that wait for it, and the state after reset
(rule R141). -/

namespace Sys2Proof.Machine

/-- The error codes of `STATUS.ERR` (rule R27); their numbers are in `Machine/Flags.lean`. -/
inductive ErrorCode where
  | none
  | divByZero
  | noncanonicalA
  | noncanonicalB
  | illegalOp
  deriving DecidableEq, Repr

/-- The bus error of rules R49 and R130, with the offset and size of the access that caused it. It is a fault of the
host's step: the block answers the access with it and changes no state of its own, so a run goes on after it. -/
structure BusError where
  off  : BitVec 8
  size : Nat
  deriving DecidableEq, Repr

/-- What the block answered to a host's access: the data of a read (rule R50), the end of a write (rule R51), or a bus
error (rule R49). -/
inductive Response where
  | data (d : Word)
  | done
  | error (e : BusError)
  deriving DecidableEq, Repr

/-- One move of an agent (rules R13, R141): a host's bus access, the core's completion, or the reset input. -/
inductive Turn where
  | access (t : Transaction)
  | core
  | reset
  deriving DecidableEq, Repr

/-- The state of rule R41, with the model's own fields after the blank line.
`MOD0..MOD3` (a function of `P`, rule R20) and `CMD` (no storage, rule R21) are no fields. -/
structure State where
  /-- operand register A (rule R16) -/
  a : Limbs4
  /-- operand register B (rule R17) -/
  b : Limbs4
  /-- result register R (rule R18) -/
  r : Limbs4
  /-- `STATUS.BUSY` (rule R23) -/
  busy : Bool
  /-- `STATUS.EQ` (rule R24) -/
  eq : Bool
  /-- `STATUS.OVR` (rule R26) -/
  ovr : Bool
  /-- `STATUS.ERR` (rule R27) -/
  err : BitVec 4
  /-- `STATUS.LASTOP` (rule R28) -/
  lastop : BitVec 4
  /-- operand latch `LA` (rule R33) -/
  la : U256
  /-- operand latch `LB` (rule R33) -/
  lb : U256
  /-- opcode latch `LOP` (rule R34) -/
  lop : BitVec 4

  /-- the moves that wait, oldest first: which agent moves next is data (rules R13, R53; log entry 4) -/
  agenda : List Turn
  /-- the answer to the last bus access performed, none before the first (rules R49 to R51; log entry 5) -/
  response : Option Response
  /-- how many resets have been taken: the argument of the free values of rule R141 (log entry 3) -/
  resets : Nat
  deriving DecidableEq, Repr

/-- Why the machine stops. -/
inductive Fault where
  /-- `BUSY = 1` and `LOP` holds no legal opcode. Raised by `completionStep`. Safe: rule R40 says that no run reaches such
  a state, and the spec gives it no effect. Log entry 7. -/
  | illegalLatch (lop : BitVec 4)
  deriving DecidableEq, Repr

/-- Why the model gives no meaning. -/
inductive Refusal where
  /-- An arm of `exec` that has no meaning yet. Raised by no arm of this model. Safe. -/
  | notModelled (mnemonic : String)
  deriving DecidableEq, Repr

/-- The state after reset (rules R15, R141): A, B, R and `STATUS` hold zero, the latches any value (log entry 3).
No input waits, nothing has been answered (log entries 4 and 5). -/
def State.reset : State where
  a := ⟨0, 0, 0, 0⟩
  b := ⟨0, 0, 0, 0⟩
  r := ⟨0, 0, 0, 0⟩
  busy := false
  eq := false
  ovr := false
  err := 0
  lastop := 0
  la := Config.resetLA 0
  lb := Config.resetLB 0
  lop := Config.resetLOP 0
  agenda := []
  response := none
  resets := 0

end Sys2Proof.Machine
end

