-- ==== Sys2Proof/Machine/Operands.lean ====
section
/-! DEFINITION. Limb arrays and the numbers they denote (rule R10), the registers of the window by offset (rule R45), the
physical addresses of the window (rules R43, R45), and the operand checks of a command (rules R62, R79). -/

namespace Sys2Proof.Machine

/-! ### Limb arrays of any length (rules R7, R10) -/

/-- `val(l)`: limb 0 is the least significant (rule R10). -/
def limbsVal : List Word → Nat
  | [] => 0
  | x :: xs => x.toNat + 2 ^ 64 * limbsVal xs

/-- `limbs_N(v)` (rule R10). -/
def limbs : Nat → Nat → List Word
  | 0, _ => []
  | n + 1, v => BitVec.ofNat 64 v :: limbs n (v / 2 ^ 64)

/-! ### The four-limb registers -/

/-- `val` of a four-limb register (rules R10, R63). -/
def valLimbs4 (l : Limbs4) : Nat :=
  l.l0.toNat + 2 ^ 64 * l.l1.toNat + 2 ^ 128 * l.l2.toNat + 2 ^ 192 * l.l3.toNat

/-- `limbs_4(v)` as a register's contents (rule R10). -/
def ofNatLimbs4 (v : Nat) : Limbs4 :=
  ⟨BitVec.ofNat 64 v, BitVec.ofNat 64 (v / 2 ^ 64), BitVec.ofNat 64 (v / 2 ^ 128), BitVec.ofNat 64 (v / 2 ^ 192)⟩

/-- Limb `i` of a register. -/
def getLimb (l : Limbs4) (i : Fin 4) : Word :=
  match i with
  | 0 => l.l0
  | 1 => l.l1
  | 2 => l.l2
  | 3 => l.l3

/-- A register with limb `i` replaced (rule R72). -/
def setLimb (l : Limbs4) (i : Fin 4) (d : Word) : Limbs4 :=
  match i with
  | 0 => { l with l0 := d }
  | 1 => { l with l1 := d }
  | 2 => { l with l2 := d }
  | 3 => { l with l3 := d }

/-! ### The register window -/

/-- What stands at an aligned offset of the window (rule R45). -/
inductive WindowReg where
  | a (i : Fin 4)
  | b (i : Fin 4)
  | r (i : Fin 4)
  | cmd
  | status
  | modulus (i : Fin 4)
  | reserved
  deriving DecidableEq, Repr

/-- The address map of rule R45, for the aligned offsets. -/
def windowReg (off : BitVec 8) : WindowReg :=
  match off.toNat with
  | 0x00 => .a 0
  | 0x08 => .a 1
  | 0x10 => .a 2
  | 0x18 => .a 3
  | 0x20 => .b 0
  | 0x28 => .b 1
  | 0x30 => .b 2
  | 0x38 => .b 3
  | 0x40 => .r 0
  | 0x48 => .r 1
  | 0x50 => .r 2
  | 0x58 => .r 3
  | 0x60 => .cmd
  | 0x68 => .status
  | 0x80 => .modulus 0
  | 0x88 => .modulus 1
  | 0x90 => .modulus 2
  | 0x98 => .modulus 3
  | _ => .reserved

/-- The window offset of a physical address, for the addresses the block decodes (rules R8, R45); what lies at another
address is the platform's. -/
def windowOffset (addr : Nat) : Option (BitVec 8) :=
  if Config.BASE ≤ addr ∧ addr < Config.BASE + 256 then some (BitVec.ofNat 8 (addr - Config.BASE)) else none

/-- Byte `k` of a register: bits `[8k+7:8k]` (rule R43). -/
def byteLane (w : Word) (k : Nat) : Byte := w.extractLsb' (8 * k) 8

/-- The data a host gets with a response: what a read returned, `0` with a bus error (rule R49). -/
def responseData : Option Response → Word
  | some (.data d) => d
  | some .done => 0
  | some (.error _) => 0
  | none => 0

/-! ### The command function's results and operand checks (rules R79, R80) -/

/-- What the command function returns: `Val v`, `Flag e` or `Err c` (rule R80). -/
inductive Result where
  | val (v : Nat)
  | flag (e : Bool)
  | err (c : ErrorCode)
  deriving DecidableEq, Repr

/-- `checkA(a) then k` (rule R79): an operand A outside `[0, P)` is `NONCANONICAL_A`. -/
def checkA (P a : Nat) (k : Result) : Result :=
  if P ≤ a then .err .noncanonicalA else k

/-- `checkB(b) then k` (rule R79). -/
def checkB (P b : Nat) (k : Result) : Result :=
  if P ≤ b then .err .noncanonicalB else k

/-- `checkAB(a,b) then k`: A first, the first failure wins (rule R79). -/
def checkAB (P a b : Nat) (k : Result) : Result :=
  checkA P a (checkB P b k)

end Sys2Proof.Machine
end

