-- ==== Sys2Proof/Machine/Limbs.lean ====
section
/-! DEFINITION. The modulus-agnostic limb primitives (rules R87 to R97), on limb arrays of any length: `add_limbs_N`,
`sub_limbs_N`, `mul64` and `mul_limbs`. They are internal to a completion step; no command reaches one directly (rule R97). -/

namespace Sys2Proof.Machine

/-- The loop of `add_limbs_N` from the carry `c` on (rule R87). -/
def addLimbsFrom (c : Nat) : List Word → List Word → List Word × Nat
  | x :: xs, y :: ys =>
    let sum := x.toNat + y.toNat + c
    let (rest, carry) := addLimbsFrom (sum / 2 ^ 64) xs ys
    (BitVec.ofNat 64 (sum % 2 ^ 64) :: rest, carry)
  | [], _ => ([], c)
  | _ :: _, [] => ([], c)

/-- `add_limbs_N(a, b) -> (r, c)` (rule R87). -/
def addLimbs (a b : List Word) : List Word × Nat := addLimbsFrom 0 a b

/-- The loop of `sub_limbs_N` from the borrow `w` on (rule R89). -/
def subLimbsFrom (w : Nat) : List Word → List Word → List Word × Nat
  | x :: xs, y :: ys =>
    let d : Int := (x.toNat : Int) - y.toNat - w
    let (rest, borrow) := subLimbsFrom (if d < 0 then 1 else 0) xs ys
    (BitVec.ofNat 64 (d % 2 ^ 64).toNat :: rest, borrow)
  | [], _ => ([], w)
  | _ :: _, [] => ([], w)

/-- `sub_limbs_N(a, b) -> (r, w)` (rule R89). -/
def subLimbs (a b : List Word) : List Word × Nat := subLimbsFrom 0 a b

/-- `mul64(x, y) -> (hi, lo)` (rule R91). -/
def mul64 (x y : Word) : Word × Word :=
  let p := x.toNat * y.toNat
  (BitVec.ofNat 64 (p / 2 ^ 64), BitVec.ofNat 64 (p % 2 ^ 64))

/-- One round `i` of rule R94 on the accumulator from position `i` on: the inner loop over `b` with its carry, then
`w[i+4] <- carry` (the limb after the last one the loop wrote). -/
def mulRound (x : Word) (carry : Nat) : List Word → List Word → List Word
  | y :: ys, w :: ws =>
    let (hi, lo) := mul64 x y
    let t := w.toNat + (2 ^ 64 * hi.toNat + lo.toNat) + carry
    BitVec.ofNat 64 (t % 2 ^ 64) :: mulRound x (t / 2 ^ 64) ys ws
  | [], _ :: ws => BitVec.ofNat 64 carry :: ws
  | _, [] => []

/-- The outer loop of rule R94: round `i` works on the accumulator from position `i` on and leaves the limbs below it. -/
def mulRounds (b : List Word) : List Word → List Word → List Word
  | [], w => w
  | x :: xs, w =>
    match mulRound x 0 b w with
    | [] => []
    | w0 :: ws => w0 :: mulRounds b xs ws

/-- `mul_limbs(a, b)`: the accumulator starts at zero and has a limb for each limb of both operands (rules R93, R94). -/
def mulLimbs (a b : List Word) : List Word :=
  mulRounds b a (List.replicate (a.length + b.length) 0)

end Sys2Proof.Machine
end

