-- ==== Sys2Proof/WellFormed.lean ====
section
/-! DEFINITION. Well-formed terms. A command has no operand, so there is nothing in it to be ill-formed (rule R69); a bus
transaction must be one the block accepts (rules R47, R48); a host script accesses aligned offsets only (rule R145). That it
also jumps only to labels it defines, and defines each once, is the model's requirement: rule R70 does not say so (log
entry 9). -/

namespace Sys2Proof

/-- Commands take no operands (rule R69): each of the seven is well formed. -/
def Instr.wellFormed : Instr → Bool
  | .fload => true
  | .fadd => true
  | .fsub => true
  | .fmul => true
  | .fneg => true
  | .finv => true
  | .feq => true

/-- The check of rule R49: 8 bytes wide (rule R47) and naturally aligned (rule R48). -/
def Transaction.wellFormed (t : Transaction) : Bool :=
  t.size == 8 && t.off.toNat % 8 == 0

/-- The labels a script defines, in order. -/
def Script.labels (p : Script) : List Nat :=
  p.filterMap fun op => match op with
    | .label l => some l
    | .w _ _ => none
    | .r _ _ => none
    | .cmd _ => none
    | .bnz _ _ _ => none
    | .j _ => none

/-- One line against the labels of its script: an access is 8-byte aligned (rule R145 point 1), a branch or jump names a
defined label (DESIGN CHOICE, log entry 9). -/
def HostOp.wellFormed (labels : List Nat) : HostOp → Bool
  | .w off _ => off.toNat % 8 == 0
  | .r off _ => off.toNat % 8 == 0
  | .cmd i => i.wellFormed
  | .label _ => true
  | .bnz _ _ l => labels.contains l
  | .j l => labels.contains l

/-- A script: each label defined once (DESIGN CHOICE, log entry 9), each line well formed. -/
def Script.wellFormed (p : Script) : Bool :=
  decide (Script.labels p).Nodup && p.all (HostOp.wellFormed (Script.labels p))

end Sys2Proof
end

