-- ==== Sys2Proof/Decode.lean ====
section
/-! DEFINITION. Decoding a command word (rules R60, R61, R64, R66), the eight little-endian byte lanes it travels in
(rule R43), and the encoder written from the same table. -/

namespace Sys2Proof

/-- Why a command is no legal command (rules R59, R64). -/
inductive Illegal where
  /-- fewer than the eight bytes of a command word (rule R59) -/
  | short (bytes : Nat)
  /-- a bit of `RSV` is set, whatever `OP` is (rule R64) -/
  | reservedBits (rsv : BitVec 60)
  /-- `RSV = 0` and `OP` is `0x0` or in `0x8..0xF` (rule R64) -/
  | opcode (op : BitVec 4)
  deriving DecidableEq, Repr

/-- `OP = w[3:0]` (rule R60). -/
def opField (w : Word) : BitVec 4 := w.extractLsb' 0 4

/-- `RSV = w[63:4]` (rule R60). -/
def rsvField (w : Word) : BitVec 60 := w.extractLsb' 4 60

/-- The opcode map (rule R61). -/
def decodeOp (op : BitVec 4) : Option Instr :=
  match op.toNat with
  | 1 => some .fload
  | 2 => some .fadd
  | 3 => some .fsub
  | 4 => some .fmul
  | 5 => some .fneg
  | 6 => some .finv
  | 7 => some .feq
  | _ => none

/-- `decode : u64 -> Option Op` of rule R66, total, with the reason of a rejection by name. -/
def decodeWord (w : Word) : Except Illegal Instr :=
  if rsvField w ≠ 0 then .error (.reservedBits (rsvField w))
  else match decodeOp (opField w) with
    | some i => .ok i
    | none => .error (.opcode (opField w))

/-- The number a little-endian byte list denotes: byte `k` is bits `[8k+7:8k]` (rule R43). -/
def bytesVal : List Byte → Nat
  | [] => 0
  | b :: bs => b.toNat + 256 * bytesVal bs

/-- The `n` byte lanes of a number, the least significant first (rule R43). -/
def bytesOf : Nat → Nat → List Byte
  | 0, _ => []
  | n + 1, v => BitVec.ofNat 8 v :: bytesOf n (v / 256)

/-- Decoding a byte list: its first eight bytes are one command word (rules R43, R59, R67); the rest is returned. -/
def decode (bs : List Byte) : Except Illegal (Instr × List Byte) :=
  if bs.length < 8 then .error (.short bs.length)
  else match decodeWord (BitVec.ofNat 64 (bytesVal (bs.take 8))) with
    | .ok i => .ok (i, bs.drop 8)
    | .error e => .error e

/-- The opcode of a command (rule R61). -/
def opcodeOf : Instr → BitVec 4
  | .fload => 0x1
  | .fadd => 0x2
  | .fsub => 0x3
  | .fmul => 0x4
  | .fneg => 0x5
  | .finv => 0x6
  | .feq => 0x7

/-- The command word: `OP` in bits 3:0, `RSV` zero (rules R60, R61). -/
def encodeWord (i : Instr) : Word := 0#60 ++ opcodeOf i

/-- The eight bytes of the command word as the bus carries them (rules R43, R59). -/
def encode (i : Instr) : List Byte := bytesOf 8 (encodeWord i).toNat

/-- What the decoder reads from a row's bits, numbered as the opcode table numbers them, the bits above `nbits` zero.
A command is never longer than 64 bits (rule R67). -/
def decodeTableWord (nbits w : Nat) : Option Instr :=
  if nbits ≤ 64 then
    match decode (bytesOf 8 (w % 2 ^ nbits)) with
    | .ok (i, _) => some i
    | .error _ => none
  else none

end Sys2Proof
end

