-- ==== Sys2Proof/Machine/Flags.lean ====
section
/-! DEFINITION. The fields of `STATUS` (rules R22 to R30): the numbers of the error codes, the equality flag and the word a
read of `STATUS` returns. The carries and borrows of the limb primitives are no flags (rule R31). -/

namespace Sys2Proof.Machine

/-- The code of an error in `STATUS.ERR` (rule R27). -/
def errorCode : ErrorCode → BitVec 4
  | .none => 0
  | .divByZero => 1
  | .noncanonicalA => 2
  | .noncanonicalB => 3
  | .illegalOp => 4

/-- `feq(a, b)`, the value FEQ writes to `STATUS.EQ`: the limb arrays are compared directly (rule R103). -/
def feqFlag (a b : Nat) : Bool := decide (ofNatLimbs4 a = ofNatLimbs4 b)

/-- The word a read of `STATUS` returns: `{48'b0, LASTOP, ERR, 5'b0, OVR, EQ, BUSY}` (rules R22, R50). -/
def statusWord (s : State) : Word :=
  0#48 ++ s.lastop ++ s.err ++ 0#5 ++ BitVec.ofBool s.ovr ++ BitVec.ofBool s.eq ++ BitVec.ofBool s.busy

end Sys2Proof.Machine
end

