-- ==== Sys2Proof/Machine/Ops.lean ====
section
/-! DEFINITION. The operations the instructions and agents share: the named register updates, reading and writing the
register window (rules R49 to R51), accepting a command (rules R73 to R77), recording an error (rule R82), completing a
command (rule R81) and reset (rule R141).

The block has no trap and no return from one (rules R133, R134): `signalError` is the whole of taking an error, and the
error state is left by `accept` or by `resetBlock`. -/

namespace Sys2Proof.Machine

/-! ### Register updates -/

/-- `A <- l`. -/
def setA (l : Limbs4) (s : State) : State := { s with a := l }
/-- `B <- l`. -/
def setB (l : Limbs4) (s : State) : State := { s with b := l }
/-- `R <- l`, all four limbs in one step (rule R18). -/
def setR (l : Limbs4) (s : State) : State := { s with r := l }
/-- `STATUS.BUSY <- v`. -/
def setBusy (v : Bool) (s : State) : State := { s with busy := v }
/-- `STATUS.EQ <- v`. -/
def setEq (v : Bool) (s : State) : State := { s with eq := v }
/-- `STATUS.OVR <- v`. -/
def setOvr (v : Bool) (s : State) : State := { s with ovr := v }
/-- `STATUS.ERR <- c`. -/
def setErr (c : ErrorCode) (s : State) : State := { s with err := errorCode c }
/-- `STATUS.LASTOP <- op`. -/
def setLastop (op : BitVec 4) (s : State) : State := { s with lastop := op }
/-- `LOP <- op ; LA <- val(A) ; LB <- val(B)`, in one step (rules R33, R34, R76). -/
def latch (op : BitVec 4) (s : State) : State :=
  { s with lop := op, la := BitVec.ofNat 256 (valLimbs4 s.a), lb := BitVec.ofNat 256 (valLimbs4 s.b) }
/-- The moves that wait. -/
def setAgenda (ts : List Turn) (s : State) : State := { s with agenda := ts }
/-- The block's answer to the access being performed. -/
def respond (x : Response) (s : State) : State := { s with response := some x }

/-! ### Command write and acceptance -/

/-- `Start(op)` (rule R76). -/
def start (i : Instr) (s : State) : State := setBusy true (latch (opcodeOf i) s)

/-- `IllegalCommand(w)` (rule R75). -/
def illegalCommand (s : State) : State := setErr .illegalOp s

/-- `Accept(w)` (rule R74). -/
def accept (w : Word) (s : State) : State :=
  let s' := setLastop (opField w) (setErr .none (setOvr false s))
  match decodeWord w with
  | .ok i => start i s'
  | .error _ => illegalCommand s'

/-- `Ignore(w)`: `w` is discarded (rule R77). -/
def ignoreCommand (s : State) : State := setOvr true s

/-- `CmdWrite(w)` (rule R73). -/
def cmdWrite (w : Word) (s : State) : State :=
  match s.busy with
  | true => ignoreCommand s
  | false => accept w s

/-! ### Bus accesses -/

/-- `BusRead(off)` for an aligned 8-byte read, at modulus `P` (rule R50). -/
def busRead (P : Nat) (off : BitVec 8) (s : State) : Word :=
  match windowReg off with
  | .a i => getLimb s.a i
  | .b i => getLimb s.b i
  | .r i => getLimb s.r i
  | .cmd => 0
  | .status => statusWord s
  | .modulus i => getLimb (ofNatLimbs4 P) i
  | .reserved => 0

/-- `BusWrite(off, data)` for an aligned 8-byte write (rules R46, R51, R72). -/
def busWrite (off : BitVec 8) (d : Word) (s : State) : State :=
  match windowReg off with
  | .a i => setA (setLimb s.a i d) s
  | .b i => setB (setLimb s.b i d) s
  | .r _ => s
  | .cmd => cmdWrite d s
  | .status => s
  | .modulus _ => s
  | .reserved => s

/-- `BusAccess(off, size, dir, data)` (rule R49). A bus error is answered and changes nothing else. Log entry 6. -/
def busAccess (t : Transaction) (s : State) : State :=
  match t.size == 8 && t.off.toNat % 8 == 0, t.dir with
  | false, _ => respond (.error ⟨t.off, t.size⟩) s
  | true, .read => respond (.data (busRead Config.P t.off s)) s
  | true, .write => respond .done (busWrite t.off t.data s)

/-- The transaction a host's access of a physical address is for the block; none for an address outside the window, which
the block does not decode (rules R8, R45, R68). -/
def transactionAt (dir : Dir) (addr size : Nat) (d : Word) : Option Transaction :=
  (windowOffset addr).map fun off => ⟨dir, off, size, d⟩

/-- The byte the window holds at a physical address, none outside the window (rules R43, R44, R45). It is the byte view of
the registers the block's reads return; a host reads whole registers only (rule R47). -/
def windowByte (addr : Nat) (s : State) : Option Byte :=
  (windowOffset addr).map fun off =>
    byteLane (busRead Config.P (BitVec.ofNat 8 (off.toNat / 8 * 8)) s) (off.toNat % 8)

/-! ### Errors, completion and reset -/

/-- `signal c`: the whole effect of an error (rules R82, R133). -/
def signalError (c : ErrorCode) (s : State) : State := setErr c s

/-- `Complete()` with the command function's result (rule R81): all its writes are one step (rule R39). -/
def complete (x : Result) (s : State) : State :=
  setBusy false (match x with
    | .val v => setR (ofNatLimbs4 v) s
    | .flag e => setEq e s
    | .err c => signalError c s)

/-- `Reset()` (rule R141). The latches take fresh free values (log entry 3); the inputs that wait and the answer to the last
access are the outside world's and stay (log entries 4 and 5). -/
def resetBlock (s : State) : State :=
  { s with
    a := ⟨0, 0, 0, 0⟩, b := ⟨0, 0, 0, 0⟩, r := ⟨0, 0, 0, 0⟩
    busy := false, eq := false, ovr := false, err := errorCode .none, lastop := 0
    la := Config.resetLA (s.resets + 1), lb := Config.resetLB (s.resets + 1), lop := Config.resetLOP (s.resets + 1)
    resets := s.resets + 1 }

end Sys2Proof.Machine
end

