-- ==== Sys2Proof/Machine/AddSub.lean ====
section
/-! DEFINITION. FADD, FSUB and FNEG (rules R98 to R102), each the value computed at modulus `P`, the command function's
result with its operand checks (rule R80), and the meaning. -/

namespace Sys2Proof.Machine

/-- `fadd(a, b)`: at most one conditional subtraction of `P` (rule R98). -/
def fadd (P a b : Nat) : Nat :=
  let (s, c) := addLimbs (limbs 4 a) (limbs 4 b)
  if c = 1 ∨ P ≤ limbsVal s then limbsVal (subLimbs s (limbs 4 P)).1 else limbsVal s

/-- `fsub(a, b)`: `P` is added once when there is a borrow (rule R100). -/
def fsub (P a b : Nat) : Nat :=
  let (d, w) := subLimbs (limbs 4 a) (limbs 4 b)
  if w = 1 then limbsVal (addLimbs d (limbs 4 P)).1 else limbsVal d

/-- `fneg(a)`: zero is special-cased (rule R101). -/
def fneg (P a : Nat) : Nat :=
  if a = 0 then 0 else limbsVal (subLimbs (limbs 4 P) (limbs 4 a)).1

/-- `exec(FADD, a, b)` (rule R80). -/
def faddResult (P a b : Nat) : Result := checkAB P a b (.val (fadd P a b))

/-- `exec(FSUB, a, b)` (rule R80). -/
def fsubResult (P a b : Nat) : Result := checkAB P a b (.val (fsub P a b))

/-- `exec(FNEG, a, b)`: B is neither read nor checked (rules R80, R101). -/
def fnegResult (P a : Nat) : Result := checkA P a (.val (fneg P a))

/-- FADD (rules R81, R98). -/
def execFadd (s : State) : Host.Outcome State Fault Refusal :=
  .next (complete (faddResult Config.P s.la.toNat s.lb.toNat) s)

/-- FSUB (rules R81, R100). -/
def execFsub (s : State) : Host.Outcome State Fault Refusal :=
  .next (complete (fsubResult Config.P s.la.toNat s.lb.toNat) s)

/-- FNEG (rules R81, R101). -/
def execFneg (s : State) : Host.Outcome State Fault Refusal :=
  .next (complete (fnegResult Config.P s.la.toNat) s)

end Sys2Proof.Machine
end

