-- ==== Sys2Proof/Machine/Equality.lean ====
section
/-! DEFINITION. FEQ (rule R103): the one command that writes a flag. -/

namespace Sys2Proof.Machine

/-- `exec(FEQ, a, b)` (rule R80). -/
def feqResult (P a b : Nat) : Result := checkAB P a b (.flag (feqFlag a b))

/-- FEQ (rules R81, R103). -/
def execFeq (s : State) : Host.Outcome State Fault Refusal :=
  .next (complete (feqResult Config.P s.la.toNat s.lb.toNat) s)

end Sys2Proof.Machine
end

