-- ==== Sys2Proof/Machine/Inversion.lean ====
section
/-! DEFINITION. FINV (rules R115 to R124): the extended Euclidean algorithm on exact integers. -/

namespace Sys2Proof.Machine

/-- The loop of rule R117 on `(old_r, r)` and `(old_t, t)`, exact integers (rule R118); it answers the last `old_t`.
`fuel` bounds the iterations; `r` strictly decreases (rule R119), so the start value of `r` is enough. -/
def euclidLoop : Nat → Int → Int → Int → Int → Int
  | 0, _, _, oldT, _ => oldT
  | fuel + 1, oldR, r, oldT, t =>
    if r = 0 then oldT
    else euclidLoop fuel r (oldR - oldR / r * r) t (oldT - oldR / r * t)

/-- The normalization into `[0, P)` (rule R121). -/
def normalizeCoeff (P : Nat) (t : Int) : Nat := (if t < 0 then t + P else t).toNat

/-- `finv(a)` for `0 < a < P` (rule R117). -/
def finv (P a : Nat) : Nat := normalizeCoeff P (euclidLoop a P a 0 1)

/-- `exec(FINV, a, b)`: B is neither read nor checked; zero is `DIV_BY_ZERO` (rules R80, R115, R116). -/
def finvResult (P a : Nat) : Result :=
  checkA P a (if a = 0 then .err .divByZero else .val (finv P a))

/-- FINV (rules R81, R115). -/
def execFinv (s : State) : Host.Outcome State Fault Refusal :=
  .next (complete (finvResult Config.P s.la.toNat) s)

end Sys2Proof.Machine
end

