-- ==== Sys2Proof/Machine/Reduction.lean ====
section
/-! DEFINITION. The reducer (rules R107 to R109), FMUL (rule R110) and FLOAD (rule R112). -/

namespace Sys2Proof.Machine

/-- `n = bitlen(P)`: the position of the highest set bit plus one (rule R108). -/
def bitlen (n : Nat) : Nat := if n = 0 then 0 else n.log2 + 1

/-- The reference loop of rule R108 from step `k` down to step 0: a conditional subtraction of `2^k * P` each. -/
def reduceFrom (P : Nat) : Nat → Nat → Nat
  | 0, r => if 2 ^ 0 * P ≤ r then r - 2 ^ 0 * P else r
  | k + 1, r => reduceFrom P k (if 2 ^ (k + 1) * P ≤ r then r - 2 ^ (k + 1) * P else r)

/-- `reduce_P(x)` for `x < 2^512` (rules R107, R108). -/
def reduceP (P x : Nat) : Nat := reduceFrom P (512 - bitlen P) x

/-- `fmul(a, b)`: the wide product, reduced (rule R110). -/
def fmul (P a b : Nat) : Nat := reduceP P (limbsVal (mulLimbs (limbs 4 a) (limbs 4 b)))

/-- `fload(a)`: construction with reduction, any `a < 2^256` (rule R112). -/
def fload (P a : Nat) : Nat := reduceP P a

/-- `exec(FMUL, a, b)` (rule R80). -/
def fmulResult (P a b : Nat) : Result := checkAB P a b (.val (fmul P a b))

/-- `exec(FLOAD, a, b)`: nothing is checked (rules R80, R112). -/
def floadResult (P a : Nat) : Result := .val (fload P a)

/-- FMUL (rules R81, R110). -/
def execFmul (s : State) : Host.Outcome State Fault Refusal :=
  .next (complete (fmulResult Config.P s.la.toNat s.lb.toNat) s)

/-- FLOAD (rules R81, R112). -/
def execFload (s : State) : Host.Outcome State Fault Refusal :=
  .next (complete (floadResult Config.P s.la.toNat) s)

end Sys2Proof.Machine
end

