-- ==== Sys2Proof/Machine/Dispatch.lean ====
section
/-! DEFINITION. The meaning of each command: its completion on the latched operands (rules R80, R81). -/
namespace Sys2Proof.Machine

/-- The core's completion step for a command, on the operands the state has latched (rules R80, R81). -/
def exec (i : Instr) (s : State) : Host.Outcome State Fault Refusal :=
  match i with
  | .fload => Sys2Proof.Machine.execFload s
  | .fadd => Sys2Proof.Machine.execFadd s
  | .fsub => Sys2Proof.Machine.execFsub s
  | .fmul => Sys2Proof.Machine.execFmul s
  | .fneg => Sys2Proof.Machine.execFneg s
  | .finv => Sys2Proof.Machine.execFinv s
  | .feq => Sys2Proof.Machine.execFeq s

end Sys2Proof.Machine
end

