-- ==== Sys2Proof/Machine/Agents.lean ====
section
/-! DEFINITION. What each agent does in its turn (rule R13): the core's completion step, the host's access, the reset. -/

namespace Sys2Proof.Machine

/-- The core's turn: the completion of the latched command, enabled exactly when `BUSY = 1` (rule R81). In an idle block
the core has no step and the turn passes with no effect (log entry 4). -/
def completionStep (s : State) : Host.Outcome State Fault Refusal :=
  match s.busy, decodeOp s.lop with
  | false, _ => .next s
  | true, some i => exec i s
  | true, none => .fault (.illegalLatch s.lop)

/-- One turn of an agent on a state it has been taken from (rules R13, R53, R144). -/
def takeTurn (t : Turn) (s : State) : Host.Outcome State Fault Refusal :=
  match t with
  | .core => completionStep s
  | .access x => .next (busAccess x s)
  | .reset => .next (resetBlock s)

/-- The bus transaction that writes a word to `CMD` (rules R59, R68). -/
def cmdTransaction (w : Word) : Transaction := ⟨.write, 0x60, 8, w⟩

/-- The block with the command word `w` latched and the core's turn next: what accepting `w` in an idle block leaves
(rules R74, R76). A word that is no legal command latches nothing (rule R75): its `CMD` write is then the next turn. -/
def placeCommand (w : Word) (s : State) : State :=
  match decodeWord w with
  | .ok _ => setAgenda (.core :: s.agenda) (accept w (setBusy false s))
  | .error _ => setAgenda (.access (cmdTransaction w) :: s.agenda) (setBusy false s)

end Sys2Proof.Machine
end

