-- ==== Sys2Proof/Machine/Step.lean ====
section
/-! DEFINITION. One step of the machine: the next turn of the agenda; the core's when the agenda is empty (rules R53, R85). -/

namespace Sys2Proof.Machine

/-- One step. The oldest waiting turn is taken. With none waiting, the core completes a command in flight, which is how an
accepted command completes after finitely many other steps (rule R85); an idle block then waits (log entry 4). -/
def step (s : State) : Host.Outcome State Fault Refusal :=
  match s.agenda with
  | [] => completionStep s
  | t :: ts => takeTurn t (setAgenda ts s)

/-- `s` with the command of the table word `w` where the next step takes its command from (log entry 8). -/
def State.withFetchWord (s : State) (nbits w : Nat) : State :=
  placeCommand (BitVec.ofNat 64 (w % 2 ^ nbits)) s

end Sys2Proof.Machine
end

