-- ==== Sys2Proof/Machine/Script.lean ====
section
/-! DEFINITION. A host that runs a script (rules R69 to R71): the pseudo-instructions and their expansions, and one step of
the host agent (rule R13). Host branches and variables are the host's, not the block's (rule R70), so they are no part of
`State`; the host reaches the block through `busAccess` alone. Log entry 9. -/

namespace Sys2Proof.Machine

/-- The host's own state: the line it runs next and its variables, the newest binding first (rule R70). -/
structure HostState where
  line : Nat
  vars : List (Nat × Word)
  deriving DecidableEq, Repr

/-- The value of a host variable; one that no line has assigned reads 0 (log entry 9). -/
def hostVar (h : HostState) (x : Nat) : Word :=
  match h.vars.lookup x with
  | some w => w
  | none => 0

/-- The value a script line writes. -/
def hostValue (h : HostState) (v : HostValue) : Word :=
  match v with
  | .lit w => w
  | .var x => hostVar h x

/-- The 256-bit number in four consecutive host variables, the least significant first: the `x` of `RDR` (rule R71). -/
def hostWide (h : HostState) (x : Nat) : Nat :=
  valLimbs4 ⟨hostVar h x, hostVar h (x + 1), hostVar h (x + 2), hostVar h (x + 3)⟩

/-- The host goes on to the next line. -/
def hostAdvance (h : HostState) : HostState := { h with line := h.line + 1 }

/-- `x <- w`. -/
def hostAssign (x : Nat) (w : Word) (h : HostState) : HostState := { h with vars := (x, w) :: h.vars }

/-- Where a jump to a label leads. Rule R70 names the jump and not these two cases, which are the model's choice: past the
end for a label the script does not define, and to the first of the lines for a label it defines more than once. DESIGN
CHOICE, log entry 9. -/
def labelLine (p : Script) (l : Nat) : Nat := p.findIdx (fun op => op == .label l)

/-- The bus transaction of a script line, none for the host's own lines (rules R68 to R70). -/
def hostTransaction (h : HostState) (op : HostOp) : Option Transaction :=
  match op with
  | .w off v => some ⟨.write, off, 8, hostValue h v⟩
  | .r off _ => some ⟨.read, off, 8, 0⟩
  | .cmd i => some (cmdTransaction (encodeWord i))
  | .label _ => none
  | .bnz _ _ _ => none
  | .j _ => none

/-- What a script line does to the host, given the data of the block's answer (rule R70). -/
def hostEffect (p : Script) (op : HostOp) (answer : Word) (h : HostState) : HostState :=
  match op with
  | .w _ _ => hostAdvance h
  | .r _ x => hostAssign x answer (hostAdvance h)
  | .cmd _ => hostAdvance h
  | .label _ => hostAdvance h
  | .bnz x mask l => if hostVar h x &&& mask ≠ 0 then { h with line := labelLine p l } else hostAdvance h
  | .j l => { h with line := labelLine p l }

/-- One step of the host agent: the line it stands at, with at most one bus access (rules R13, R70). Past the last line the
script has ended. -/
def hostStep (p : Script) (h : HostState) (s : State) : HostState × State :=
  match p[h.line]? with
  | none => (h, s)
  | some op =>
    match hostTransaction h op with
    | none => (hostEffect p op 0 h, s)
    | some t => (hostEffect p op (responseData (busAccess t s).response) h, busAccess t s)

/-- `k` steps of the host in a row, with no other agent's turn between them. -/
def hostSteps (p : Script) : Nat → HostState → State → HostState × State
  | 0, h, s => (h, s)
  | k + 1, h, s => hostSteps p k (hostStep p h s).1 (hostStep p h s).2

/-! ### Pseudo-instructions (rule R71) -/

/-- `LDA v`. -/
def scriptLDA (v : Limbs4) : Script := [.w 0x00 (.lit v.l0), .w 0x08 (.lit v.l1), .w 0x10 (.lit v.l2), .w 0x18 (.lit v.l3)]

/-- `LDB v`. -/
def scriptLDB (v : Limbs4) : Script := [.w 0x20 (.lit v.l0), .w 0x28 (.lit v.l1), .w 0x30 (.lit v.l2), .w 0x38 (.lit v.l3)]

/-- `POLL`, with `s` the variable of the last `STATUS` read and `l` the fresh label. -/
def scriptPOLL (s l : Nat) : Script := [.label l, .r 0x68 s, .bnz s 0x1 l]

/-- `RDR -> x`, into the variables `x` to `x + 3`. -/
def scriptRDR (x : Nat) : Script := [.r 0x40 x, .r 0x48 (x + 1), .r 0x50 (x + 2), .r 0x58 (x + 3)]

/-- `RDMOD -> x`, into the variables `x` to `x + 3`. -/
def scriptRDMOD (x : Nat) : Script := [.r 0x80 x, .r 0x88 (x + 1), .r 0x90 (x + 2), .r 0x98 (x + 3)]

/-- `CPRA`: R is copied to A through the host, in the variables `t` to `t + 3`. -/
def scriptCPRA (t : Nat) : Script :=
  scriptRDR t ++ [.w 0x00 (.var t), .w 0x08 (.var (t + 1)), .w 0x10 (.var (t + 2)), .w 0x18 (.var (t + 3))]

/-- `CPRB`: R is copied to B through the host. -/
def scriptCPRB (t : Nat) : Script :=
  scriptRDR t ++ [.w 0x20 (.var t), .w 0x28 (.var (t + 1)), .w 0x30 (.var (t + 2)), .w 0x38 (.var (t + 3))]

/-- `RUN op`: issue a command and wait for its completion. -/
def scriptRUN (i : Instr) (s l : Nat) : Script := .cmd i :: scriptPOLL s l

end Sys2Proof.Machine
end

