-- ==== Sys2Proof/Safety.lean ====
section
/-! DEFINITION. What claims are stated with: the invariant of rule R40, the observable part of a state, and what it is for
two states to differ only in latches no rule reads (rules R33, R34, R38). -/

namespace Sys2Proof.Machine

/-- The invariant of rules R39 and R40, without its clause on R: `ERR` is one of the five codes; while a command is in flight
`LOP` is a legal opcode, `ERR` is `NONE` and `LASTOP` is the opcode in flight. -/
structure CommandInv (s : State) : Prop where
  err_le : s.err.toNat ≤ 4
  lop_legal : s.busy = true → 1 ≤ s.lop.toNat ∧ s.lop.toNat ≤ 7
  err_none : s.busy = true → s.err = errorCode .none
  lastop_eq : s.busy = true → s.lastop = s.lop

/-- The invariant of rule R40 whole: R holds a canonical value (rules R14, R84) and `CommandInv` holds. -/
structure BlockInv (s : State) : Prop extends CommandInv s where
  r_canonical : valLimbs4 s.r < Config.P

/-- Two states that differ at most in `LA`, `LB` and `LOP`, and in nothing while a command is in flight: rules R33 and R34
let no rule read these latches while `BUSY = 0`. -/
def SameButIdleLatches (s t : State) : Prop :=
  t = { s with la := t.la, lb := t.lb, lop := t.lop } ∧ (s.busy = true → t = s)

/-- Two outcomes of the same kind, with related next states. -/
def SameOutcome (rel : State → State → Prop) : Host.Outcome State Fault Refusal → Host.Outcome State Fault Refusal → Prop
  | .next s, .next t => rel s t
  | .fault x, .fault y => x = y
  | .refused x, .refused y => x = y
  | .next _, .fault _ => False
  | .next _, .refused _ => False
  | .fault _, .next _ => False
  | .fault _, .refused _ => False
  | .refused _, .next _ => False
  | .refused _, .fault _ => False

/-- The word a host's read of an aligned offset returns (rule R50), whatever else it does. -/
def readWord (off : BitVec 8) (s : State) : Word := busRead Config.P off s

/-- The two operands of rule R62's "checked canonical" column: A for every command but FLOAD. -/
def checksA : Instr → Bool
  | .fload => false
  | .fadd => true
  | .fsub => true
  | .fmul => true
  | .fneg => true
  | .finv => true
  | .feq => true

/-- B for the commands that read `LB` (rule R62). -/
def checksB : Instr → Bool
  | .fload => false
  | .fadd => true
  | .fsub => true
  | .fmul => true
  | .fneg => false
  | .finv => false
  | .feq => true

/-- The next turn is the core's (rule R13): it stands first on the agenda, or no turn waits. That the core moves when no turn
waits is the model's choice (DESIGN CHOICE, log entry 4), one that rule R85 allows. -/
def coreMovesNext (s : State) : Bool :=
  match s.agenda with
  | [] => true
  | .core :: _ => true
  | .access _ :: _ => false
  | .reset :: _ => false

end Sys2Proof.Machine
end

