-- ==== Sys2Proof/Certificates/Slice0/Obligations.lean ====
section
/-! DEFINITION. The statements about the model, in the order of OBLIGATIONS.json. They are stated here and never proved here.

Statements about a command are about its completion step `exec` on the operands the state has latched (rules R80, R81);
`Config.P` is opaque, so each of them holds for every modulus rule R5 admits. -/

open Sys2Proof Sys2Proof.Machine

/-! ### Encoding -/

/-- Rule R61: the seven command words, and four of the illegal words of rule R64's kinds, as the opcode table numbers them. -/
def Obligations.SevenWordsDecode : Prop :=
  decodeTableWord 64 0x0000000000000001 = some .fload ∧
  decodeTableWord 64 0x0000000000000002 = some .fadd ∧
  decodeTableWord 64 0x0000000000000003 = some .fsub ∧
  decodeTableWord 64 0x0000000000000004 = some .fmul ∧
  decodeTableWord 64 0x0000000000000005 = some .fneg ∧
  decodeTableWord 64 0x0000000000000006 = some .finv ∧
  decodeTableWord 64 0x0000000000000007 = some .feq ∧
  decodeTableWord 64 0x0000000000000000 = none ∧
  decodeTableWord 64 0x0000000000000008 = none ∧
  decodeTableWord 64 0x0000000000000017 = none ∧
  decodeTableWord 64 0x8000000000000002 = none

/-- Rule R66: of the `2^64` words exactly the seven of rule R61 decode, each to its command; a word decodes exactly when its
reserved bits are zero and its opcode is in `1..7` (rule R64). -/
def Obligations.DecodeAcceptsExactlySevenWords : Prop :=
  ∀ w : Word,
    (decodeWord w = .ok .fload ↔ w = 0x0000000000000001) ∧
    (decodeWord w = .ok .fadd ↔ w = 0x0000000000000002) ∧
    (decodeWord w = .ok .fsub ↔ w = 0x0000000000000003) ∧
    (decodeWord w = .ok .fmul ↔ w = 0x0000000000000004) ∧
    (decodeWord w = .ok .fneg ↔ w = 0x0000000000000005) ∧
    (decodeWord w = .ok .finv ↔ w = 0x0000000000000006) ∧
    (decodeWord w = .ok .feq ↔ w = 0x0000000000000007) ∧
    ((∃ i, decodeWord w = .ok i) ↔
      w.extractLsb' 4 60 = 0 ∧ 1 ≤ (w.extractLsb' 0 4).toNat ∧ (w.extractLsb' 0 4).toNat ≤ 7)

/-- Decode and encode agree on byte lists (rules R43, R61, R66): the bytes of a well-formed command followed by any rest
decode to it and the rest, and no other byte list decodes to them. -/
def Obligations.DecodeEncodeAgree : Prop :=
  ∀ (bs rest : List Byte) (i : Instr), i.wellFormed = true →
    (decode bs = .ok (i, rest) ↔ bs = encode i ++ rest)

/-! ### Steps -/

/-- A step runs the decoded command (rule R81): when the core moves next and `BUSY = 1`, the step is the completion of the
command whose opcode is latched, on the state its turn has been taken from. That the core moves next when no turn waits is
the model's choice, log entry 4. -/
def Obligations.StepRunsLatchedCommand : Prop :=
  ∀ (s : State) (i : Instr), coreMovesNext s = true → s.busy = true → s.lop = opcodeOf i →
    step s = exec i (setAgenda s.agenda.tail s)

/-- The command of a table word, placed where the next step takes its command from, is what the next step runs: on the
operands A and B hold, with the status fields its acceptance leaves (rules R74, R76; log entry 8). -/
def Obligations.PlacedCommandRuns : Prop :=
  ∀ (s : State) (w : Nat) (i : Instr), decodeTableWord 64 w = some i →
    step (s.withFetchWord 64 w) =
      exec i { s with
        lop := opcodeOf i
        la := BitVec.ofNat 256 (valLimbs4 s.a)
        lb := BitVec.ofNat 256 (valLimbs4 s.b)
        busy := true
        ovr := false
        err := 0
        lastop := opcodeOf i }

/-- A command written to `CMD` of an idle block is accepted in the step that performs the write, and the core's next turn
completes it on the values A and B held at acceptance (rules R73, R74, R76, R81). -/
def Obligations.CommandWriteThenCompletion : Prop :=
  ∀ (s : State) (w : Word) (i : Instr) (ts : List Turn), s.busy = false → decodeWord w = .ok i →
    s.agenda = .access ⟨.write, 0x60, 8, w⟩ :: .core :: ts →
    ∃ t, step s = .next t ∧ step t = exec i (setAgenda ts t) ∧
      t.la.toNat = valLimbs4 s.a ∧ t.lb.toNat = valLimbs4 s.b

/-- The other turns (rules R13, R144): an access and a reset are performed wholly in one step; with nothing waiting an
idle block stays as it is, and so it does in a turn of the core with no command in flight (log entry 4). -/
def Obligations.StepTakesTheNextTurn : Prop :=
  (∀ (s : State) (x : Transaction) (ts : List Turn), s.agenda = .access x :: ts →
    step s = .next (busAccess x { s with agenda := ts })) ∧
  (∀ (s : State) (ts : List Turn), s.agenda = .reset :: ts → step s = .next (resetBlock { s with agenda := ts })) ∧
  (∀ (s : State) (ts : List Turn), s.busy = false → s.agenda = .core :: ts → step s = .next { s with agenda := ts }) ∧
  (∀ s : State, s.busy = false → s.agenda = [] → step s = .next s)

/-! ### The register window -/

/-- Rules R74 and R76: writing a legal command word to `CMD` of an idle block clears `OVR` and `ERR`, records the opcode,
latches the opcode and both operands and sets `BUSY`; nothing else changes but the answer to the host. -/
def Obligations.LegalCommandIsAccepted : Prop :=
  ∀ (s : State) (w : Word) (i : Instr), s.busy = false → decodeWord w = .ok i →
    busAccess ⟨.write, 0x60, 8, w⟩ s =
      { s with
        ovr := false
        err := 0
        lastop := w.extractLsb' 0 4
        lop := w.extractLsb' 0 4
        la := BitVec.ofNat 256 (valLimbs4 s.a)
        lb := BitVec.ofNat 256 (valLimbs4 s.b)
        busy := true
        response := some .done }

/-- Rule R75 (with the acceptance of rule R74): an accepted word that is no legal command sets `ERR` to `ILLEGAL_OP`, code 4;
`BUSY` stays 0 and `LA`, `LB`, `LOP`, R and `EQ` are unchanged; the next `STATUS` read shows it, `0x8400` for the word 8. -/
def Obligations.IllegalCommandIsRecorded : Prop :=
  (∀ (s : State) (w : Word) (e : Illegal), s.busy = false → decodeWord w = .error e →
    busAccess ⟨.write, 0x60, 8, w⟩ s =
      { s with
        ovr := false
        err := 4
        lastop := w.extractLsb' 0 4
        response := some .done }) ∧
  (∀ s : State, s.busy = false → s.eq = false →
    (busAccess ⟨.read, 0x68, 8, 0⟩ (busAccess ⟨.write, 0x60, 8, 0x8⟩ s)).response = some (.data 0x8400))

/-- Rule R77: a `CMD` write performed while `BUSY = 1` sets `OVR` and changes nothing else, whatever the word. -/
def Obligations.BusyCommandIsIgnored : Prop :=
  ∀ (s : State) (w : Word), s.busy = true →
    busAccess ⟨.write, 0x60, 8, w⟩ s = { s with ovr := true, response := some .done }

/-- Rule R50: what a read of each aligned offset returns, that the answer is all it changes, and that a second read returns
the same. `STATUS` is written out as the sum of its fields. -/
def Obligations.ReadsReturnTheRegisters : Prop :=
  (∀ (s : State) (off : BitVec 8) (d : Word), off.toNat % 8 = 0 →
    ∃ v, busAccess ⟨.read, off, 8, d⟩ s = { s with response := some (.data v) } ∧
      busAccess ⟨.read, off, 8, d⟩ (busAccess ⟨.read, off, 8, d⟩ s) = { s with response := some (.data v) } ∧
      v = readWord off s) ∧
  (∀ s : State,
    readWord 0x00 s = s.a.l0 ∧ readWord 0x08 s = s.a.l1 ∧ readWord 0x10 s = s.a.l2 ∧ readWord 0x18 s = s.a.l3 ∧
    readWord 0x20 s = s.b.l0 ∧ readWord 0x28 s = s.b.l1 ∧ readWord 0x30 s = s.b.l2 ∧ readWord 0x38 s = s.b.l3 ∧
    readWord 0x40 s = s.r.l0 ∧ readWord 0x48 s = s.r.l1 ∧ readWord 0x50 s = s.r.l2 ∧ readWord 0x58 s = s.r.l3 ∧
    readWord 0x60 s = 0 ∧
    (readWord 0x68 s).toNat =
      s.busy.toNat + 2 * s.eq.toNat + 4 * s.ovr.toNat + 256 * s.err.toNat + 4096 * s.lastop.toNat ∧
    readWord 0x80 s = BitVec.ofNat 64 Config.P ∧
    readWord 0x88 s = BitVec.ofNat 64 (Config.P / 2 ^ 64) ∧
    readWord 0x90 s = BitVec.ofNat 64 (Config.P / 2 ^ 128) ∧
    readWord 0x98 s = BitVec.ofNat 64 (Config.P / 2 ^ 192)) ∧
  (∀ (s : State) (off : BitVec 8), off.toNat % 8 = 0 →
    off.toNat = 0x70 ∨ off.toNat = 0x78 ∨ 0xA0 ≤ off.toNat → readWord off s = 0)

/-- Rule R29: the reserved bits of `STATUS` read 0 in every state; the other bits are the fields of rule R22. -/
def Obligations.StatusReservedBitsReadZero : Prop :=
  ∀ s : State,
    (readWord 0x68 s).extractLsb' 3 5 = 0 ∧
    (readWord 0x68 s).extractLsb' 16 48 = 0 ∧
    (readWord 0x68 s).extractLsb' 0 1 = BitVec.ofBool s.busy ∧
    (readWord 0x68 s).extractLsb' 1 1 = BitVec.ofBool s.eq ∧
    (readWord 0x68 s).extractLsb' 2 1 = BitVec.ofBool s.ovr ∧
    (readWord 0x68 s).extractLsb' 8 4 = s.err ∧
    (readWord 0x68 s).extractLsb' 12 4 = s.lastop

/-- Rules R30 and R46: an aligned 8-byte write of a reserved offset or a read-only register changes nothing but the answer to
the host; a reserved offset and `CMD` read 0 and an aligned read of any of them, `STATUS` too, changes nothing else either. -/
def Obligations.ReadOnlyWritesAreIgnored : Prop :=
  (∀ (s : State) (off : BitVec 8) (d : Word), off.toNat % 8 = 0 → 0x40 ≤ off.toNat → off.toNat ≠ 0x60 →
    busAccess ⟨.write, off, 8, d⟩ s = { s with response := some .done }) ∧
  (∀ (s : State) (off : BitVec 8) (d : Word), off.toNat % 8 = 0 →
    off.toNat = 0x60 ∨ off.toNat = 0x70 ∨ off.toNat = 0x78 ∨ 0xA0 ≤ off.toNat →
    busAccess ⟨.read, off, 8, d⟩ s = { s with response := some (.data 0) }) ∧
  (∀ (s : State) (d : Word), ∃ v, busAccess ⟨.read, 0x68, 8, d⟩ s = { s with response := some (.data v) })

/-- Rule R72: a write of an operand offset stores the 64 bits in that limb, busy or not, and changes nothing else. -/
def Obligations.OperandStoreWritesOneLimb : Prop :=
  ∀ (s : State) (d : Word),
    busAccess ⟨.write, 0x00, 8, d⟩ s = { s with a := { s.a with l0 := d }, response := some .done } ∧
    busAccess ⟨.write, 0x08, 8, d⟩ s = { s with a := { s.a with l1 := d }, response := some .done } ∧
    busAccess ⟨.write, 0x10, 8, d⟩ s = { s with a := { s.a with l2 := d }, response := some .done } ∧
    busAccess ⟨.write, 0x18, 8, d⟩ s = { s with a := { s.a with l3 := d }, response := some .done } ∧
    busAccess ⟨.write, 0x20, 8, d⟩ s = { s with b := { s.b with l0 := d }, response := some .done } ∧
    busAccess ⟨.write, 0x28, 8, d⟩ s = { s with b := { s.b with l1 := d }, response := some .done } ∧
    busAccess ⟨.write, 0x30, 8, d⟩ s = { s with b := { s.b with l2 := d }, response := some .done } ∧
    busAccess ⟨.write, 0x38, 8, d⟩ s = { s with b := { s.b with l3 := d }, response := some .done }

/-- Rule R54 point 1 for the operand registers (no alias, rule R19): after a write of an operand offset a read of that
offset returns the data, and a read of every other aligned offset returns what it did. -/
def Obligations.ReadAfterOperandWrite : Prop :=
  ∀ (s : State) (off : BitVec 8) (d : Word), off.toNat % 8 = 0 → off.toNat < 0x40 →
    readWord off (busAccess ⟨.write, off, 8, d⟩ s) = d ∧
    ∀ off' : BitVec 8, off'.toNat % 8 = 0 → off' ≠ off →
      readWord off' (busAccess ⟨.write, off, 8, d⟩ s) = readWord off' s

/-- Rule R150: the order of the limb writes does not matter. -/
def Obligations.OperandWritesCommute : Prop :=
  ∀ (s : State) (x y : BitVec 8) (d e : Word), x ≠ y →
    x.toNat % 8 = 0 → x.toNat < 0x40 → y.toNat % 8 = 0 → y.toNat < 0x40 →
    busAccess ⟨.write, x, 8, d⟩ (busAccess ⟨.write, y, 8, e⟩ s) =
      busAccess ⟨.write, y, 8, e⟩ (busAccess ⟨.write, x, 8, d⟩ s)

/-- Rules R47 to R49 and R130: an access of another size or at a misaligned offset is answered with a bus error, the host
gets data 0, and no state of the block changes. That the run goes on is the model's choice, log entry 6. -/
def Obligations.BusErrorChangesNothing : Prop :=
  ∀ (s : State) (x : Transaction), x.size ≠ 8 ∨ x.off.toNat % 8 ≠ 0 →
    busAccess x s = { s with response := some (.error ⟨x.off, x.size⟩) } ∧
    responseData (busAccess x s).response = 0

/-- Rule R20: the modulus registers read the limbs of `P` in every state, so no step changes them; together they are `P`. -/
def Obligations.ModulusRegistersReadP : Prop :=
  (∀ s : State,
    (readWord 0x80 s).toNat = Config.P % 2 ^ 64 ∧
    (readWord 0x88 s).toNat = Config.P / 2 ^ 64 % 2 ^ 64 ∧
    (readWord 0x90 s).toNat = Config.P / 2 ^ 128 % 2 ^ 64 ∧
    (readWord 0x98 s).toNat = Config.P / 2 ^ 192 % 2 ^ 64 ∧
    (readWord 0x80 s).toNat + 2 ^ 64 * (readWord 0x88 s).toNat + 2 ^ 128 * (readWord 0x90 s).toNat +
      2 ^ 192 * (readWord 0x98 s).toNat = Config.P) ∧
  (∀ s t : State, step s = .next t →
    readWord 0x80 t = readWord 0x80 s ∧ readWord 0x88 t = readWord 0x88 s ∧
    readWord 0x90 t = readWord 0x90 s ∧ readWord 0x98 t = readWord 0x98 s)

/-- Rules R43 and R44: byte `j` of the value of A, B, R and the modulus is the byte of the window at its base plus `j`; an
address outside the 256 bytes from `BASE` is none of the block's (rule R45). -/
def Obligations.WindowBytesAreLittleEndian : Prop :=
  (∀ (s : State) (j : Nat), j < 32 →
    windowByte (Config.BASE + j) s = some (BitVec.ofNat 8 (valLimbs4 s.a / 256 ^ j)) ∧
    windowByte (Config.BASE + 0x20 + j) s = some (BitVec.ofNat 8 (valLimbs4 s.b / 256 ^ j)) ∧
    windowByte (Config.BASE + 0x40 + j) s = some (BitVec.ofNat 8 (valLimbs4 s.r / 256 ^ j)) ∧
    windowByte (Config.BASE + 0x80 + j) s = some (BitVec.ofNat 8 (Config.P / 256 ^ j))) ∧
  (∀ (s : State) (addr : Nat), addr < Config.BASE ∨ Config.BASE + 256 ≤ addr → windowByte addr s = none)

/-! ### The commands -/

/-- FLOAD completes for every operand, canonical or not: `R <- limbs_4(val(LA) mod P)` and `BUSY <- 0`, nothing else
(rules R81, R112). -/
def Obligations.FloadReduces : Prop :=
  ∀ s : State, exec .fload s = .next { s with r := ofNatLimbs4 (s.la.toNat % Config.P), busy := false }

/-- FADD on canonical operands: `R <- limbs_4((a + b) mod P)` and `BUSY <- 0`, nothing else (rules R81, R98, R99). -/
def Obligations.FaddAdds : Prop :=
  ∀ s : State, s.la.toNat < Config.P → s.lb.toNat < Config.P →
    exec .fadd s = .next { s with r := ofNatLimbs4 ((s.la.toNat + s.lb.toNat) % Config.P), busy := false }

/-- FSUB on canonical operands: `R <- limbs_4((a - b) mod P)` and `BUSY <- 0`, nothing else (rules R81, R100). -/
def Obligations.FsubSubtracts : Prop :=
  ∀ s : State, s.la.toNat < Config.P → s.lb.toNat < Config.P →
    exec .fsub s =
      .next { s with r := ofNatLimbs4 (((s.la.toNat : Int) - s.lb.toNat) % Config.P).toNat, busy := false }

/-- FMUL on canonical operands: `R <- limbs_4((a * b) mod P)` and `BUSY <- 0`, nothing else (rules R81, R110). -/
def Obligations.FmulMultiplies : Prop :=
  ∀ s : State, s.la.toNat < Config.P → s.lb.toNat < Config.P →
    exec .fmul s = .next { s with r := ofNatLimbs4 (s.la.toNat * s.lb.toNat % Config.P), busy := false }

/-- FNEG on a canonical A, whatever B: `R <- limbs_4(P - a)`, `0` for `a = 0`, and `BUSY <- 0`, nothing else
(rules R81, R101). -/
def Obligations.FnegNegates : Prop :=
  ∀ s : State, s.la.toNat < Config.P →
    exec .fneg s =
      .next { s with r := ofNatLimbs4 (if s.la.toNat = 0 then 0 else Config.P - s.la.toNat), busy := false }

/-- FINV on a canonical nonzero A, whatever B: `R <- limbs_4(v)` for the `v` in `[0, P)` with `(a * v) mod P = 1`, and
`BUSY <- 0`, nothing else (rules R81, R115, R122). -/
def Obligations.FinvInverts : Prop :=
  ∀ s : State, 0 < s.la.toNat → s.la.toNat < Config.P →
    ∃ v, v < Config.P ∧ s.la.toNat * v % Config.P = 1 ∧
      exec .finv s = .next { s with r := ofNatLimbs4 v, busy := false }

/-- FEQ on canonical operands: `STATUS.EQ` is 1 exactly when the operands are equal, and `BUSY <- 0`, nothing else, R among
it (rules R81, R103). -/
def Obligations.FeqCompares : Prop :=
  ∀ s : State, s.la.toNat < Config.P → s.lb.toNat < Config.P →
    exec .feq s = .next { s with eq := decide (s.la.toNat = s.lb.toNat), busy := false }

/-- Rule R126: every command but FLOAD, on an A outside `[0, P)`, completes with `ERR = 2` and changes nothing else but
`BUSY`, whatever B is. -/
def Obligations.NoncanonicalAIsReported : Prop :=
  ∀ (s : State) (i : Instr), i = .fadd ∨ i = .fsub ∨ i = .fmul ∨ i = .fneg ∨ i = .finv ∨ i = .feq →
    Config.P ≤ s.la.toNat → exec i s = .next { s with err := 2, busy := false }

/-- Rule R127: FADD, FSUB, FMUL and FEQ on a canonical A and a B outside `[0, P)` complete with `ERR = 3` and change nothing
else but `BUSY`. -/
def Obligations.NoncanonicalBIsReported : Prop :=
  ∀ (s : State) (i : Instr), i = .fadd ∨ i = .fsub ∨ i = .fmul ∨ i = .feq →
    s.la.toNat < Config.P → Config.P ≤ s.lb.toNat → exec i s = .next { s with err := 3, busy := false }

/-- Rules R116 and R125: FINV of zero completes with `ERR = 1`, R unchanged, the block idle; no other command reports code 1,
and FINV reports it for zero only. -/
def Obligations.DivisionByZeroIsReported : Prop :=
  (∀ s : State, s.la.toNat = 0 → exec .finv s = .next { s with err := 1, busy := false }) ∧
  (∀ (s t : State) (i : Instr), s.err = 0 → exec i s = .next t → t.err = 1 → i = .finv ∧ s.la.toNat = 0)

/-- Rules R79, R83 and R132: a completion reports one code, a non-canonical A before a non-canonical B before a zero, and
leaves `ERR` alone when it reports none; `OVR` is a separate flag. -/
def Obligations.ErrorPriority : Prop :=
  ∀ (s t : State) (i : Instr), exec i s = .next t →
    t.err = (if checksA i = true ∧ Config.P ≤ s.la.toNat then 2
      else if checksB i = true ∧ Config.P ≤ s.lb.toNat then 3
      else if i = .finv ∧ s.la.toNat = 0 then 1
      else s.err) ∧
    t.ovr = s.ovr

/-- The frame of every command: a completion changes at most R, `EQ` (FEQ only; FEQ leaves R), `ERR` and `BUSY`, which it
clears; every byte of the window outside R and `STATUS` reads as before, and for FEQ every byte outside `STATUS`. -/
def Obligations.CompletionFrame : Prop :=
  ∀ (s t : State) (i : Instr), exec i s = .next t →
    t = { s with r := t.r, eq := t.eq, err := t.err, busy := false } ∧
    (i ≠ .feq → t.eq = s.eq) ∧
    (i = .feq → t.r = s.r) ∧
    (t.err ≠ s.err → t.r = s.r ∧ t.eq = s.eq) ∧
    (∀ addr, addr < Config.BASE + 0x40 ∨ Config.BASE + 0x60 ≤ addr →
      addr < Config.BASE + 0x68 ∨ Config.BASE + 0x70 ≤ addr → windowByte addr t = windowByte addr s) ∧
    (i = .feq → ∀ addr, addr < Config.BASE + 0x68 ∨ Config.BASE + 0x70 ≤ addr → windowByte addr t = windowByte addr s)

/-- Rule R84: a completion that writes R writes a canonical value; one that does not leaves R. Each value the command
function returns (rule R80) is canonical, for all contents of the latches. -/
def Obligations.ResultsAreCanonical : Prop :=
  (∀ (s t : State) (i : Instr), exec i s = .next t → t.r = s.r ∨ valLimbs4 t.r < Config.P) ∧
  (∀ (a b : U256) (v : Nat),
    floadResult Config.P a.toNat = .val v ∨ faddResult Config.P a.toNat b.toNat = .val v ∨
    fsubResult Config.P a.toNat b.toNat = .val v ∨ fmulResult Config.P a.toNat b.toNat = .val v ∨
    fnegResult Config.P a.toNat = .val v ∨ finvResult Config.P a.toNat = .val v → v < Config.P)

/-- Rules R80 and R106: a command reads nothing but its latched operands. From two states with the same latches, whatever
else they hold, a command writes the same fields with the same values: the same R or none, the same `EQ` or none, the same
`ERR` or none. -/
def Obligations.CommandReadsOnlyItsLatches : Prop :=
  ∀ (s t s' t' : State) (i : Instr), s.la = t.la → s.lb = t.lb → exec i s = .next s' → exec i t = .next t' →
    (s' = { s with r := s'.r, busy := false } ∧ t' = { t with r := s'.r, busy := false }) ∨
    (s' = { s with eq := s'.eq, busy := false } ∧ t' = { t with eq := s'.eq, busy := false }) ∨
    (s' = { s with err := s'.err, busy := false } ∧ t' = { t with err := s'.err, busy := false })

/-! ### Limb arithmetic and field arithmetic -/

/-- Rule R88, for limb arrays of any length `N`. -/
def Obligations.AddLimbsIsExact : Prop :=
  ∀ a b : List Word, a.length = b.length →
    (addLimbs a b).1.length = a.length ∧
    limbsVal (addLimbs a b).1 + (addLimbs a b).2 * 2 ^ (64 * a.length) = limbsVal a + limbsVal b ∧
    ((addLimbs a b).2 = 0 ∨ (addLimbs a b).2 = 1) ∧
    limbsVal (addLimbs a b).1 < 2 ^ (64 * a.length)

/-- Rule R90, for limb arrays of any length `N`. -/
def Obligations.SubLimbsIsExact : Prop :=
  ∀ a b : List Word, a.length = b.length →
    (subLimbs a b).1.length = a.length ∧
    (limbsVal (subLimbs a b).1 : Int) - (subLimbs a b).2 * 2 ^ (64 * a.length) = (limbsVal a : Int) - limbsVal b ∧
    (subLimbs a b).2 = (if limbsVal a < limbsVal b then 1 else 0)

/-- Rule R92, with the bound on `hi` of rule R91. -/
def Obligations.LimbProductIsExact : Prop :=
  ∀ x y : Word, (mul64 x y).1.toNat * 2 ^ 64 + (mul64 x y).2.toNat = x.toNat * y.toNat ∧
    (mul64 x y).1.toNat ≤ 2 ^ 64 - 2

/-- Rules R93 to R95: the schoolbook accumulation drops no carry; the wide product is exact, for operands of any lengths and
so for the `2^512` pairs of four-limb operands. -/
def Obligations.WideProductIsExact : Prop :=
  ∀ a b : List Word,
    (mulLimbs a b).length = a.length + b.length ∧ limbsVal (mulLimbs a b) = limbsVal a * limbsVal b

/-- Rules R107 and R108: the conditional-subtraction reducer returns `x mod P` for every `x < 2^512`, for every modulus that
fits four limbs. -/
def Obligations.ReducerIsRemainder : Prop :=
  ∀ P x : Nat, 0 < P → P < 2 ^ 256 → x < 2 ^ 512 → reduceP P x = x % P

/-- Rules R99 and R102 and the law of rule R100, for every modulus that fits four limbs; FADD makes at most one correction. -/
def Obligations.AddSubNegLaws : Prop :=
  ∀ P a b : Nat, P < 2 ^ 256 → a < P → b < P →
    fadd P a b = (a + b) % P ∧
    fadd P a b < P ∧
    (fadd P a b = limbsVal (addLimbs (limbs 4 a) (limbs 4 b)).1 ∨
      fadd P a b = limbsVal (subLimbs (addLimbs (limbs 4 a) (limbs 4 b)).1 (limbs 4 P)).1) ∧
    fsub P a b = (((a : Int) - b) % P).toNat ∧
    fneg P a = (P - a) % P ∧
    fneg P a = fsub P 0 a ∧
    fneg P a < P ∧
    (¬ (P - a < P) ↔ a = 0)

/-- Rules R104 and R105 (over canonical values, conflict C6). -/
def Obligations.AddSubIdentities : Prop :=
  ∀ P a b c : Nat, P < 2 ^ 256 → a < P → b < P → c < P →
    fadd P a b < P ∧ fsub P a b < P ∧ fneg P a < P ∧
    fadd P a (fneg P a) = 0 ∧
    fadd P a 0 = a ∧
    fsub P a b = fadd P a (fneg P b) ∧
    fadd P a b = fadd P b a ∧
    fadd P (fadd P a b) c = fadd P a (fadd P b c) ∧
    fneg P (fneg P a) = a ∧
    fneg P 0 = 0

/-- Rule R111; and reducing what FLOAD has reduced changes nothing. -/
def Obligations.MulIdentities : Prop :=
  ∀ P a b c : Nat, 1 < P → P < 2 ^ 256 → a < P → b < P → c < P →
    fmul P a 1 = a ∧
    fmul P a 0 = 0 ∧
    fmul P a b = fmul P b a ∧
    fmul P (fmul P a b) c = fmul P a (fmul P b c) ∧
    fmul P a (fadd P b c) = fadd P (fmul P a b) (fmul P a c) ∧
    fmul P a b < P ∧
    ∀ x, x < 2 ^ 256 → fload P (fload P x) = fload P x

/-- Rule R122: the extended Euclidean algorithm computes the inverse, for every admissible modulus, and it is the only one. -/
def Obligations.FinvIsTheInverse : Prop :=
  ∀ P a : Nat, Config.Admissible P → 0 < a → a < P →
    finv P a < P ∧ a * finv P a % P = 1 ∧ ∀ v, v < P → a * v % P = 1 → v = finv P a

/-- Rule R123: the document's alternative algorithm gives the same value. -/
def Obligations.FinvIsFermatPower : Prop :=
  ∀ P a : Nat, Config.Admissible P → 0 < a → a < P → finv P a = a ^ (P - 2) % P

/-- The corner values of rule R124. -/
def Obligations.FinvCornerValues : Prop :=
  ∀ P : Nat, Config.Admissible P →
    finv P 1 = 1 ∧
    finv P (P - 1) = P - 1 ∧
    finv P 2 = (P + 1) / 2 ∧
    ∀ a, 0 < a → a < P → finv P (finv P a) = a ∧ finv P (fneg P a) = fneg P (finv P a)

/-- Rule R121: where the loop ends `old_t` lies strictly between `-P` and `P`, one addition of `P` normalizes it, and the
result lies in `[1, P - 1]`. -/
def Obligations.EuclidExitRange : Prop :=
  ∀ P a : Nat, Config.Admissible P → 0 < a → a < P →
    -(P : Int) < euclidLoop a P a 0 1 ∧ euclidLoop a P a 0 1 < P ∧
    (finv P a : Int) =
      (if 0 ≤ euclidLoop a P a 0 1 then euclidLoop a P a 0 1 else euclidLoop a P a 0 1 + P) ∧
    1 ≤ finv P a ∧ finv P a ≤ P - 1

/-- Rule R119: the loop ends. The bound on its iterations that the model writes is never what ends it: more iterations change
nothing. -/
def Obligations.EuclidTerminates : Prop :=
  ∀ (P a k : Nat), euclidLoop (a + k) P a 0 1 = euclidLoop a P a 0 1

/-! ### The whole machine -/

/-- The state after reset meets the invariant of rule R40, and holds the reset values of rules R15 and R141: no command is in
flight, A, B and R are zero, and so is every field of `STATUS`, which reads 0. -/
def Obligations.ResetMeetsTheInvariant : Prop :=
  BlockInv State.reset ∧
  State.reset.busy = false ∧ State.reset.eq = false ∧ State.reset.ovr = false ∧
  State.reset.err = 0 ∧ State.reset.lastop = 0 ∧
  valLimbs4 State.reset.a = 0 ∧ valLimbs4 State.reset.b = 0 ∧ valLimbs4 State.reset.r = 0 ∧
  readWord 0x68 State.reset = 0

/-- Every step from a state that meets the invariant of rules R39 and R40 keeps it: R canonical, `ERR` one of the five codes,
and while a command is in flight a legal `LOP`, `ERR = NONE` and `LASTOP` the opcode in flight. -/
def Obligations.StepKeepsTheInvariant : Prop :=
  ∀ s t : State, BlockInv s → step s = .next t → BlockInv t

/-- Rule R40: in every state a run from reset reaches, whatever turns the agents take. -/
def Obligations.ReachableStatesAreLegal : Prop :=
  ∀ (ts : List Turn) (n : Nat) (t : State), Host.Core.run core n (setAgenda ts State.reset) = .next t →
    valLimbs4 t.r < Config.P ∧ t.err.toNat ≤ 4 ∧ (t.busy = true → 1 ≤ t.lop.toNat ∧ t.lop.toNat ≤ 7)

/-- Rule R86: no state is stuck. From a state that meets the invariant every step answers a next state. That an idle block
has a step with no turn waiting, and in a turn of the core, is log entry 4 (the first the model's choice, the second
DEDUCED); that the run goes on after a bus error is the model's choice, log entry 6. -/
def Obligations.NoStuckState : Prop :=
  ∀ s : State, CommandInv s → ∃ t, step s = .next t

/-- Rule R85: a command in flight completes unless a reset intervenes: after at most as many steps as turns wait, the core's
turn comes with the command and its operands as they were latched, and that step completes it. That the turns that wait are
finitely many, and that the core moves when none waits, is the model's choice, log entry 4. -/
def Obligations.CommandCompletes : Prop :=
  ∀ s : State, CommandInv s → s.busy = true → Turn.reset ∉ s.agenda →
    ∃ (k : Nat) (t u : State) (i : Instr), k ≤ s.agenda.length ∧
      Host.Core.run core k s = .next t ∧
      t.busy = true ∧ t.la = s.la ∧ t.lb = s.lb ∧ t.lop = s.lop ∧ s.lop = opcodeOf i ∧
      t.r = s.r ∧ t.eq = s.eq ∧
      step t = exec i (setAgenda t.agenda.tail t) ∧ step t = .next u ∧ u.busy = false

/-- Rule R18: only a completion step or a reset changes R; a reset clears it; a completion changes it only where the command
is no FEQ and reports no error. That the core moves next when no turn waits is the model's choice, log entry 4. -/
def Obligations.ResultChangesOnlyByCompletion : Prop :=
  ∀ s t : State, step s = .next t → t.r ≠ s.r →
    (∃ ts, s.agenda = .reset :: ts ∧ t.r = ⟨0, 0, 0, 0⟩) ∨
    (∃ i, coreMovesNext s = true ∧ s.busy = true ∧ s.lop = opcodeOf i ∧ i ≠ .feq ∧ t.err = s.err ∧ t.busy = false)

/-- Rule R24: what a step leaves in `STATUS.EQ`: the comparison after the completion of an FEQ on canonical operands, 0 after
a reset, and what it was after every other step, acceptances and errors among them. That the core moves next when no turn
waits is the model's choice, log entry 4. -/
def Obligations.EqualityFlagChanges : Prop :=
  ∀ s t : State, step s = .next t →
    (coreMovesNext s = true → s.busy = true → s.lop = opcodeOf .feq →
      s.la.toNat < Config.P → s.lb.toNat < Config.P → t.eq = decide (s.la.toNat = s.lb.toNat)) ∧
    ((∃ ts, s.agenda = .reset :: ts) → t.eq = false) ∧
    (t.eq ≠ s.eq →
      (∃ ts, s.agenda = .reset :: ts) ∨
      (coreMovesNext s = true ∧ s.busy = true ∧ s.lop = opcodeOf .feq ∧
        s.la.toNat < Config.P ∧ s.lb.toNat < Config.P))

/-- Rule R26: `STATUS.OVR` is set by a `CMD` write while busy, cleared by an accepted command and by reset, and changed by
nothing else; its reset value is 0. -/
def Obligations.OverrunFlagChanges : Prop :=
  State.reset.ovr = false ∧
  ∀ s t : State, step s = .next t →
    (∀ (w : Word) (ts : List Turn), s.agenda = .access ⟨.write, 0x60, 8, w⟩ :: ts → t.ovr = s.busy) ∧
    ((∃ ts, s.agenda = .reset :: ts) → t.ovr = false) ∧
    (t.ovr ≠ s.ovr →
      (∃ ts, s.agenda = .reset :: ts) ∨ (∃ w ts, s.agenda = .access ⟨.write, 0x60, 8, w⟩ :: ts))

/-- Rules R39 and R78: whatever accesses the host performs while a command is in flight, the latched command and operands
stay, R, `EQ`, `ERR` and `LASTOP` read as before, and the command's completion is the one it would have had. -/
def Obligations.CommandInFlightIsUndisturbed : Prop :=
  ∀ (s : State) (xs : List Transaction) (i : Instr), s.busy = true →
    (xs.foldl (fun u x => busAccess x u) s).busy = true ∧
    (xs.foldl (fun u x => busAccess x u) s).la = s.la ∧
    (xs.foldl (fun u x => busAccess x u) s).lb = s.lb ∧
    (xs.foldl (fun u x => busAccess x u) s).lop = s.lop ∧
    (xs.foldl (fun u x => busAccess x u) s).r = s.r ∧
    (xs.foldl (fun u x => busAccess x u) s).eq = s.eq ∧
    (xs.foldl (fun u x => busAccess x u) s).err = s.err ∧
    (xs.foldl (fun u x => busAccess x u) s).lastop = s.lastop ∧
    ∃ u v, exec i s = .next u ∧ exec i (xs.foldl (fun u x => busAccess x u) s) = .next v ∧
      v.r = u.r ∧ v.eq = u.eq ∧ v.err = u.err ∧ v.busy = u.busy

/-- Rules R33, R34 and R38: what the latches hold while no command is in flight is never observed: two states that differ
in them alone give the same reads and answers, and so does everything that follows, in every run. -/
def Obligations.IdleLatchesAreUnobservable : Prop :=
  (∀ s t : State, SameButIdleLatches s t →
    t.response = s.response ∧ ∀ off, readWord off t = readWord off s) ∧
  (∀ (n : Nat) (s t : State), SameButIdleLatches s t →
    SameOutcome SameButIdleLatches (Host.Core.run core n s) (Host.Core.run core n t))

/-- Rules R141 to R143: a reset, taken in any state, idle or with a command in flight, leaves the block idle, A, B and R zero
and `STATUS` reading 0, and the modulus registers read as before. Where it was taken with `BUSY = 1` the completion of the
aborted command never happens, since the core then has no step. That the turns that wait stay (DESIGN CHOICE), and that a
turn of the core in an idle block passes (DEDUCED), are the model's, log entry 4. -/
def Obligations.ResetAbortsTheCommand : Prop :=
  ∀ (s : State) (ts : List Turn), s.agenda = .reset :: ts →
    ∃ t, step s = .next t ∧ t.busy = false ∧ t.eq = false ∧ t.ovr = false ∧ t.err = 0 ∧ t.lastop = 0 ∧ t.agenda = ts ∧
      t.a = ⟨0, 0, 0, 0⟩ ∧ t.b = ⟨0, 0, 0, 0⟩ ∧ t.r = ⟨0, 0, 0, 0⟩ ∧
      readWord 0x68 t = 0 ∧
      completionStep t = .next t ∧
      readWord 0x80 t = readWord 0x80 s ∧ readWord 0x88 t = readWord 0x88 s ∧
      readWord 0x90 t = readWord 0x90 s ∧ readWord 0x98 t = readWord 0x98 s

/-! ### Host scripts -/

/-- Rule R71: `LDA v` and `LDB v` leave `v` in A and B and change nothing else but the answer; `CPRA` and `CPRB` leave R's
value in A and B. -/
def Obligations.ScriptsLoadOperands : Prop :=
  ∀ (s : State) (vs : List (Nat × Word)) (v : Limbs4) (x : Nat),
    hostSteps (scriptLDA v) 4 ⟨0, vs⟩ s = (⟨4, vs⟩, { s with a := v, response := some .done }) ∧
    hostSteps (scriptLDB v) 4 ⟨0, vs⟩ s = (⟨4, vs⟩, { s with b := v, response := some .done }) ∧
    (hostSteps (scriptCPRA x) 8 ⟨0, vs⟩ s).2 = { s with a := s.r, response := some .done } ∧
    (hostSteps (scriptCPRB x) 8 ⟨0, vs⟩ s).2 = { s with b := s.r, response := some .done } ∧
    hostWide (hostSteps (scriptRDR x) 4 ⟨0, vs⟩ s).1 x = valLimbs4 s.r ∧
    hostWide (hostSteps (scriptRDMOD x) 4 ⟨0, vs⟩ s).1 x = Config.P

/-- Rule R71: a pass of `POLL` reads `STATUS` into its variable, returns to its label while `BUSY = 1` and leaves the script
when `BUSY = 0`; the block changes in nothing but the answer. -/
def Obligations.ScriptPollsWhileBusy : Prop :=
  ∀ (s : State) (vs : List (Nat × Word)) (x l : Nat),
    hostSteps (scriptPOLL x l) 3 ⟨0, vs⟩ s =
      (⟨if s.busy = true then 0 else 3, (x, readWord 0x68 s) :: vs⟩,
        { s with response := some (.data (readWord 0x68 s)) })
end

