-- ==== Sys2Proof/Laws/Config.lean ====
section
/-! SUPPORT. What rule R5 says of the modulus, and rule R8 of the base address, whatever the build chose. -/

namespace Sys2Proof.Config

theorem P_admissible : Admissible P := by
  unfold P
  split
  · assumption
  · exact ⟨Nat.prime_three, le_refl 3, by norm_num⟩

theorem P_prime : Nat.Prime P := P_admissible.1

theorem three_le_P : 3 ≤ P := P_admissible.2.1

theorem P_lt : P < 2 ^ 256 := P_admissible.2.2

theorem P_pos : 0 < P := P_prime.pos

theorem P_odd : P % 2 = 1 := by
  rcases P_prime.eq_two_or_odd with h | h
  · have := three_le_P; omega
  · exact h

theorem BASE_multiple : BASE % 256 = 0 := by
  unfold BASE; omega

end Sys2Proof.Config
end

