-- ==== Sys2Proof/Laws/Decode.lean ====
section
/-! SUPPORT. The byte lanes and the opcode map (rules R43, R61). -/

namespace Sys2Proof

@[simp] theorem bytesOf_length (n v : Nat) : (bytesOf n v).length = n := by
  induction n generalizing v with
  | zero => rfl
  | succ n ih => simp [bytesOf, ih]

theorem bytesVal_bytesOf (n v : Nat) : bytesVal (bytesOf n v) = v % 256 ^ n := by
  induction n generalizing v with
  | zero => simp [bytesOf, bytesVal, Nat.mod_one]
  | succ n ih =>
    rw [Nat.pow_succ, Nat.mul_comm, Nat.mod_mul]
    simp [bytesOf, bytesVal, ih, BitVec.toNat_ofNat]

theorem bytesVal_lt (bs : List Byte) : bytesVal bs < 256 ^ bs.length := by
  induction bs with
  | nil => simp [bytesVal]
  | cons b bs ih =>
    have hb := b.isLt
    rw [List.length_cons, Nat.pow_succ]
    simp only [bytesVal]
    generalize 256 ^ bs.length = m at *
    omega

theorem decodeOp_opcodeOf (i : Instr) : decodeOp (opcodeOf i) = some i := by
  cases i <;> rfl

theorem decodeOp_isSome (op : BitVec 4) : (decodeOp op).isSome = true ↔ 1 ≤ op.toNat ∧ op.toNat ≤ 7 := by
  revert op; decide

theorem decodeOp_some {op : BitVec 4} {i : Instr} (h : decodeOp op = some i) : op = opcodeOf i := by
  revert i op; decide

theorem opField_toNat (w : Word) : (opField w).toNat = w.toNat % 16 := by
  simp [opField]

theorem rsvField_toNat (w : Word) : (rsvField w).toNat = w.toNat / 16 := by
  have := w.isLt
  simp only [rsvField, BitVec.extractLsb'_toNat, Nat.shiftRight_eq_div_pow]
  omega

@[simp] theorem opField_encodeWord (i : Instr) : opField (encodeWord i) = opcodeOf i := by
  cases i <;> rfl

end Sys2Proof
end

