-- ==== Sys2Proof/Laws/State.lean ====
section
/-! SUPPORT. One lemma for each field and each named register update of `Machine/Ops.lean`, true by rfl. -/

namespace Sys2Proof.Machine

/-! ### `setA` -/

@[simp] theorem setA_a (l : Limbs4) (s : State) : (setA l s).a = l := rfl
@[simp] theorem setA_b (l : Limbs4) (s : State) : (setA l s).b = s.b := rfl
@[simp] theorem setA_r (l : Limbs4) (s : State) : (setA l s).r = s.r := rfl
@[simp] theorem setA_busy (l : Limbs4) (s : State) : (setA l s).busy = s.busy := rfl
@[simp] theorem setA_eq (l : Limbs4) (s : State) : (setA l s).eq = s.eq := rfl
@[simp] theorem setA_ovr (l : Limbs4) (s : State) : (setA l s).ovr = s.ovr := rfl
@[simp] theorem setA_err (l : Limbs4) (s : State) : (setA l s).err = s.err := rfl
@[simp] theorem setA_lastop (l : Limbs4) (s : State) : (setA l s).lastop = s.lastop := rfl
@[simp] theorem setA_la (l : Limbs4) (s : State) : (setA l s).la = s.la := rfl
@[simp] theorem setA_lb (l : Limbs4) (s : State) : (setA l s).lb = s.lb := rfl
@[simp] theorem setA_lop (l : Limbs4) (s : State) : (setA l s).lop = s.lop := rfl
@[simp] theorem setA_agenda (l : Limbs4) (s : State) : (setA l s).agenda = s.agenda := rfl
@[simp] theorem setA_response (l : Limbs4) (s : State) : (setA l s).response = s.response := rfl
@[simp] theorem setA_resets (l : Limbs4) (s : State) : (setA l s).resets = s.resets := rfl

/-! ### `setB` -/

@[simp] theorem setB_a (l : Limbs4) (s : State) : (setB l s).a = s.a := rfl
@[simp] theorem setB_b (l : Limbs4) (s : State) : (setB l s).b = l := rfl
@[simp] theorem setB_r (l : Limbs4) (s : State) : (setB l s).r = s.r := rfl
@[simp] theorem setB_busy (l : Limbs4) (s : State) : (setB l s).busy = s.busy := rfl
@[simp] theorem setB_eq (l : Limbs4) (s : State) : (setB l s).eq = s.eq := rfl
@[simp] theorem setB_ovr (l : Limbs4) (s : State) : (setB l s).ovr = s.ovr := rfl
@[simp] theorem setB_err (l : Limbs4) (s : State) : (setB l s).err = s.err := rfl
@[simp] theorem setB_lastop (l : Limbs4) (s : State) : (setB l s).lastop = s.lastop := rfl
@[simp] theorem setB_la (l : Limbs4) (s : State) : (setB l s).la = s.la := rfl
@[simp] theorem setB_lb (l : Limbs4) (s : State) : (setB l s).lb = s.lb := rfl
@[simp] theorem setB_lop (l : Limbs4) (s : State) : (setB l s).lop = s.lop := rfl
@[simp] theorem setB_agenda (l : Limbs4) (s : State) : (setB l s).agenda = s.agenda := rfl
@[simp] theorem setB_response (l : Limbs4) (s : State) : (setB l s).response = s.response := rfl
@[simp] theorem setB_resets (l : Limbs4) (s : State) : (setB l s).resets = s.resets := rfl

/-! ### `setR` -/

@[simp] theorem setR_a (l : Limbs4) (s : State) : (setR l s).a = s.a := rfl
@[simp] theorem setR_b (l : Limbs4) (s : State) : (setR l s).b = s.b := rfl
@[simp] theorem setR_r (l : Limbs4) (s : State) : (setR l s).r = l := rfl
@[simp] theorem setR_busy (l : Limbs4) (s : State) : (setR l s).busy = s.busy := rfl
@[simp] theorem setR_eq (l : Limbs4) (s : State) : (setR l s).eq = s.eq := rfl
@[simp] theorem setR_ovr (l : Limbs4) (s : State) : (setR l s).ovr = s.ovr := rfl
@[simp] theorem setR_err (l : Limbs4) (s : State) : (setR l s).err = s.err := rfl
@[simp] theorem setR_lastop (l : Limbs4) (s : State) : (setR l s).lastop = s.lastop := rfl
@[simp] theorem setR_la (l : Limbs4) (s : State) : (setR l s).la = s.la := rfl
@[simp] theorem setR_lb (l : Limbs4) (s : State) : (setR l s).lb = s.lb := rfl
@[simp] theorem setR_lop (l : Limbs4) (s : State) : (setR l s).lop = s.lop := rfl
@[simp] theorem setR_agenda (l : Limbs4) (s : State) : (setR l s).agenda = s.agenda := rfl
@[simp] theorem setR_response (l : Limbs4) (s : State) : (setR l s).response = s.response := rfl
@[simp] theorem setR_resets (l : Limbs4) (s : State) : (setR l s).resets = s.resets := rfl

/-! ### `setBusy` -/

@[simp] theorem setBusy_a (v : Bool) (s : State) : (setBusy v s).a = s.a := rfl
@[simp] theorem setBusy_b (v : Bool) (s : State) : (setBusy v s).b = s.b := rfl
@[simp] theorem setBusy_r (v : Bool) (s : State) : (setBusy v s).r = s.r := rfl
@[simp] theorem setBusy_busy (v : Bool) (s : State) : (setBusy v s).busy = v := rfl
@[simp] theorem setBusy_eq (v : Bool) (s : State) : (setBusy v s).eq = s.eq := rfl
@[simp] theorem setBusy_ovr (v : Bool) (s : State) : (setBusy v s).ovr = s.ovr := rfl
@[simp] theorem setBusy_err (v : Bool) (s : State) : (setBusy v s).err = s.err := rfl
@[simp] theorem setBusy_lastop (v : Bool) (s : State) : (setBusy v s).lastop = s.lastop := rfl
@[simp] theorem setBusy_la (v : Bool) (s : State) : (setBusy v s).la = s.la := rfl
@[simp] theorem setBusy_lb (v : Bool) (s : State) : (setBusy v s).lb = s.lb := rfl
@[simp] theorem setBusy_lop (v : Bool) (s : State) : (setBusy v s).lop = s.lop := rfl
@[simp] theorem setBusy_agenda (v : Bool) (s : State) : (setBusy v s).agenda = s.agenda := rfl
@[simp] theorem setBusy_response (v : Bool) (s : State) : (setBusy v s).response = s.response := rfl
@[simp] theorem setBusy_resets (v : Bool) (s : State) : (setBusy v s).resets = s.resets := rfl

/-! ### `setEq` -/

@[simp] theorem setEq_a (v : Bool) (s : State) : (setEq v s).a = s.a := rfl
@[simp] theorem setEq_b (v : Bool) (s : State) : (setEq v s).b = s.b := rfl
@[simp] theorem setEq_r (v : Bool) (s : State) : (setEq v s).r = s.r := rfl
@[simp] theorem setEq_busy (v : Bool) (s : State) : (setEq v s).busy = s.busy := rfl
@[simp] theorem setEq_eq (v : Bool) (s : State) : (setEq v s).eq = v := rfl
@[simp] theorem setEq_ovr (v : Bool) (s : State) : (setEq v s).ovr = s.ovr := rfl
@[simp] theorem setEq_err (v : Bool) (s : State) : (setEq v s).err = s.err := rfl
@[simp] theorem setEq_lastop (v : Bool) (s : State) : (setEq v s).lastop = s.lastop := rfl
@[simp] theorem setEq_la (v : Bool) (s : State) : (setEq v s).la = s.la := rfl
@[simp] theorem setEq_lb (v : Bool) (s : State) : (setEq v s).lb = s.lb := rfl
@[simp] theorem setEq_lop (v : Bool) (s : State) : (setEq v s).lop = s.lop := rfl
@[simp] theorem setEq_agenda (v : Bool) (s : State) : (setEq v s).agenda = s.agenda := rfl
@[simp] theorem setEq_response (v : Bool) (s : State) : (setEq v s).response = s.response := rfl
@[simp] theorem setEq_resets (v : Bool) (s : State) : (setEq v s).resets = s.resets := rfl

/-! ### `setOvr` -/

@[simp] theorem setOvr_a (v : Bool) (s : State) : (setOvr v s).a = s.a := rfl
@[simp] theorem setOvr_b (v : Bool) (s : State) : (setOvr v s).b = s.b := rfl
@[simp] theorem setOvr_r (v : Bool) (s : State) : (setOvr v s).r = s.r := rfl
@[simp] theorem setOvr_busy (v : Bool) (s : State) : (setOvr v s).busy = s.busy := rfl
@[simp] theorem setOvr_eq (v : Bool) (s : State) : (setOvr v s).eq = s.eq := rfl
@[simp] theorem setOvr_ovr (v : Bool) (s : State) : (setOvr v s).ovr = v := rfl
@[simp] theorem setOvr_err (v : Bool) (s : State) : (setOvr v s).err = s.err := rfl
@[simp] theorem setOvr_lastop (v : Bool) (s : State) : (setOvr v s).lastop = s.lastop := rfl
@[simp] theorem setOvr_la (v : Bool) (s : State) : (setOvr v s).la = s.la := rfl
@[simp] theorem setOvr_lb (v : Bool) (s : State) : (setOvr v s).lb = s.lb := rfl
@[simp] theorem setOvr_lop (v : Bool) (s : State) : (setOvr v s).lop = s.lop := rfl
@[simp] theorem setOvr_agenda (v : Bool) (s : State) : (setOvr v s).agenda = s.agenda := rfl
@[simp] theorem setOvr_response (v : Bool) (s : State) : (setOvr v s).response = s.response := rfl
@[simp] theorem setOvr_resets (v : Bool) (s : State) : (setOvr v s).resets = s.resets := rfl

/-! ### `setErr` -/

@[simp] theorem setErr_a (c : ErrorCode) (s : State) : (setErr c s).a = s.a := rfl
@[simp] theorem setErr_b (c : ErrorCode) (s : State) : (setErr c s).b = s.b := rfl
@[simp] theorem setErr_r (c : ErrorCode) (s : State) : (setErr c s).r = s.r := rfl
@[simp] theorem setErr_busy (c : ErrorCode) (s : State) : (setErr c s).busy = s.busy := rfl
@[simp] theorem setErr_eq (c : ErrorCode) (s : State) : (setErr c s).eq = s.eq := rfl
@[simp] theorem setErr_ovr (c : ErrorCode) (s : State) : (setErr c s).ovr = s.ovr := rfl
@[simp] theorem setErr_err (c : ErrorCode) (s : State) : (setErr c s).err = errorCode c := rfl
@[simp] theorem setErr_lastop (c : ErrorCode) (s : State) : (setErr c s).lastop = s.lastop := rfl
@[simp] theorem setErr_la (c : ErrorCode) (s : State) : (setErr c s).la = s.la := rfl
@[simp] theorem setErr_lb (c : ErrorCode) (s : State) : (setErr c s).lb = s.lb := rfl
@[simp] theorem setErr_lop (c : ErrorCode) (s : State) : (setErr c s).lop = s.lop := rfl
@[simp] theorem setErr_agenda (c : ErrorCode) (s : State) : (setErr c s).agenda = s.agenda := rfl
@[simp] theorem setErr_response (c : ErrorCode) (s : State) : (setErr c s).response = s.response := rfl
@[simp] theorem setErr_resets (c : ErrorCode) (s : State) : (setErr c s).resets = s.resets := rfl

/-! ### `setLastop` -/

@[simp] theorem setLastop_a (op : BitVec 4) (s : State) : (setLastop op s).a = s.a := rfl
@[simp] theorem setLastop_b (op : BitVec 4) (s : State) : (setLastop op s).b = s.b := rfl
@[simp] theorem setLastop_r (op : BitVec 4) (s : State) : (setLastop op s).r = s.r := rfl
@[simp] theorem setLastop_busy (op : BitVec 4) (s : State) : (setLastop op s).busy = s.busy := rfl
@[simp] theorem setLastop_eq (op : BitVec 4) (s : State) : (setLastop op s).eq = s.eq := rfl
@[simp] theorem setLastop_ovr (op : BitVec 4) (s : State) : (setLastop op s).ovr = s.ovr := rfl
@[simp] theorem setLastop_err (op : BitVec 4) (s : State) : (setLastop op s).err = s.err := rfl
@[simp] theorem setLastop_lastop (op : BitVec 4) (s : State) : (setLastop op s).lastop = op := rfl
@[simp] theorem setLastop_la (op : BitVec 4) (s : State) : (setLastop op s).la = s.la := rfl
@[simp] theorem setLastop_lb (op : BitVec 4) (s : State) : (setLastop op s).lb = s.lb := rfl
@[simp] theorem setLastop_lop (op : BitVec 4) (s : State) : (setLastop op s).lop = s.lop := rfl
@[simp] theorem setLastop_agenda (op : BitVec 4) (s : State) : (setLastop op s).agenda = s.agenda := rfl
@[simp] theorem setLastop_response (op : BitVec 4) (s : State) : (setLastop op s).response = s.response := rfl
@[simp] theorem setLastop_resets (op : BitVec 4) (s : State) : (setLastop op s).resets = s.resets := rfl

/-! ### `latch` -/

@[simp] theorem latch_a (op : BitVec 4) (s : State) : (latch op s).a = s.a := rfl
@[simp] theorem latch_b (op : BitVec 4) (s : State) : (latch op s).b = s.b := rfl
@[simp] theorem latch_r (op : BitVec 4) (s : State) : (latch op s).r = s.r := rfl
@[simp] theorem latch_busy (op : BitVec 4) (s : State) : (latch op s).busy = s.busy := rfl
@[simp] theorem latch_eq (op : BitVec 4) (s : State) : (latch op s).eq = s.eq := rfl
@[simp] theorem latch_ovr (op : BitVec 4) (s : State) : (latch op s).ovr = s.ovr := rfl
@[simp] theorem latch_err (op : BitVec 4) (s : State) : (latch op s).err = s.err := rfl
@[simp] theorem latch_lastop (op : BitVec 4) (s : State) : (latch op s).lastop = s.lastop := rfl
@[simp] theorem latch_la (op : BitVec 4) (s : State) : (latch op s).la = BitVec.ofNat 256 (valLimbs4 s.a) := rfl
@[simp] theorem latch_lb (op : BitVec 4) (s : State) : (latch op s).lb = BitVec.ofNat 256 (valLimbs4 s.b) := rfl
@[simp] theorem latch_lop (op : BitVec 4) (s : State) : (latch op s).lop = op := rfl
@[simp] theorem latch_agenda (op : BitVec 4) (s : State) : (latch op s).agenda = s.agenda := rfl
@[simp] theorem latch_response (op : BitVec 4) (s : State) : (latch op s).response = s.response := rfl
@[simp] theorem latch_resets (op : BitVec 4) (s : State) : (latch op s).resets = s.resets := rfl

/-! ### `setAgenda` -/

@[simp] theorem setAgenda_a (ts : List Turn) (s : State) : (setAgenda ts s).a = s.a := rfl
@[simp] theorem setAgenda_b (ts : List Turn) (s : State) : (setAgenda ts s).b = s.b := rfl
@[simp] theorem setAgenda_r (ts : List Turn) (s : State) : (setAgenda ts s).r = s.r := rfl
@[simp] theorem setAgenda_busy (ts : List Turn) (s : State) : (setAgenda ts s).busy = s.busy := rfl
@[simp] theorem setAgenda_eq (ts : List Turn) (s : State) : (setAgenda ts s).eq = s.eq := rfl
@[simp] theorem setAgenda_ovr (ts : List Turn) (s : State) : (setAgenda ts s).ovr = s.ovr := rfl
@[simp] theorem setAgenda_err (ts : List Turn) (s : State) : (setAgenda ts s).err = s.err := rfl
@[simp] theorem setAgenda_lastop (ts : List Turn) (s : State) : (setAgenda ts s).lastop = s.lastop := rfl
@[simp] theorem setAgenda_la (ts : List Turn) (s : State) : (setAgenda ts s).la = s.la := rfl
@[simp] theorem setAgenda_lb (ts : List Turn) (s : State) : (setAgenda ts s).lb = s.lb := rfl
@[simp] theorem setAgenda_lop (ts : List Turn) (s : State) : (setAgenda ts s).lop = s.lop := rfl
@[simp] theorem setAgenda_agenda (ts : List Turn) (s : State) : (setAgenda ts s).agenda = ts := rfl
@[simp] theorem setAgenda_response (ts : List Turn) (s : State) : (setAgenda ts s).response = s.response := rfl
@[simp] theorem setAgenda_resets (ts : List Turn) (s : State) : (setAgenda ts s).resets = s.resets := rfl

/-! ### `respond` -/

@[simp] theorem respond_a (x : Response) (s : State) : (respond x s).a = s.a := rfl
@[simp] theorem respond_b (x : Response) (s : State) : (respond x s).b = s.b := rfl
@[simp] theorem respond_r (x : Response) (s : State) : (respond x s).r = s.r := rfl
@[simp] theorem respond_busy (x : Response) (s : State) : (respond x s).busy = s.busy := rfl
@[simp] theorem respond_eq (x : Response) (s : State) : (respond x s).eq = s.eq := rfl
@[simp] theorem respond_ovr (x : Response) (s : State) : (respond x s).ovr = s.ovr := rfl
@[simp] theorem respond_err (x : Response) (s : State) : (respond x s).err = s.err := rfl
@[simp] theorem respond_lastop (x : Response) (s : State) : (respond x s).lastop = s.lastop := rfl
@[simp] theorem respond_la (x : Response) (s : State) : (respond x s).la = s.la := rfl
@[simp] theorem respond_lb (x : Response) (s : State) : (respond x s).lb = s.lb := rfl
@[simp] theorem respond_lop (x : Response) (s : State) : (respond x s).lop = s.lop := rfl
@[simp] theorem respond_agenda (x : Response) (s : State) : (respond x s).agenda = s.agenda := rfl
@[simp] theorem respond_response (x : Response) (s : State) : (respond x s).response = some x := rfl
@[simp] theorem respond_resets (x : Response) (s : State) : (respond x s).resets = s.resets := rfl

/-! ### `resetBlock` -/

@[simp] theorem resetBlock_a (s : State) : (resetBlock s).a = ⟨0, 0, 0, 0⟩ := rfl
@[simp] theorem resetBlock_b (s : State) : (resetBlock s).b = ⟨0, 0, 0, 0⟩ := rfl
@[simp] theorem resetBlock_r (s : State) : (resetBlock s).r = ⟨0, 0, 0, 0⟩ := rfl
@[simp] theorem resetBlock_busy (s : State) : (resetBlock s).busy = false := rfl
@[simp] theorem resetBlock_eq (s : State) : (resetBlock s).eq = false := rfl
@[simp] theorem resetBlock_ovr (s : State) : (resetBlock s).ovr = false := rfl
@[simp] theorem resetBlock_err (s : State) : (resetBlock s).err = 0 := rfl
@[simp] theorem resetBlock_lastop (s : State) : (resetBlock s).lastop = 0 := rfl
@[simp] theorem resetBlock_la (s : State) : (resetBlock s).la = Config.resetLA (s.resets + 1) := rfl
@[simp] theorem resetBlock_lb (s : State) : (resetBlock s).lb = Config.resetLB (s.resets + 1) := rfl
@[simp] theorem resetBlock_lop (s : State) : (resetBlock s).lop = Config.resetLOP (s.resets + 1) := rfl
@[simp] theorem resetBlock_agenda (s : State) : (resetBlock s).agenda = s.agenda := rfl
@[simp] theorem resetBlock_response (s : State) : (resetBlock s).response = s.response := rfl
@[simp] theorem resetBlock_resets (s : State) : (resetBlock s).resets = s.resets + 1 := rfl

end Sys2Proof.Machine
end

