-- ==== Sys2Proof/Laws/Operands.lean ====
section
/-! SUPPORT. How limb arrays and registers denote numbers (rule R10), and what the operand checks can answer (rule R79). -/

namespace Sys2Proof.Machine

theorem limbsVal_lt (l : List Word) : limbsVal l < 2 ^ (64 * l.length) := by
  induction l with
  | nil => simp [limbsVal]
  | cons x xs ih =>
    have hx := x.isLt
    have hp : (2 : Nat) ^ (64 * (x :: xs).length) = 2 ^ 64 * 2 ^ (64 * xs.length) := by
      rw [List.length_cons, Nat.mul_add, Nat.add_comm, Nat.pow_add]
    rw [hp]
    simp only [limbsVal]
    generalize 2 ^ (64 * xs.length) = m at *
    omega

@[simp] theorem limbs_length (n v : Nat) : (limbs n v).length = n := by
  induction n generalizing v with
  | zero => rfl
  | succ n ih => simp [limbs, ih]

@[simp] theorem limbsVal_limbs (n v : Nat) : limbsVal (limbs n v) = v % 2 ^ (64 * n) := by
  induction n generalizing v with
  | zero => simp [limbs, limbsVal, Nat.mod_one]
  | succ n ih =>
    have hp : (2 : Nat) ^ (64 * (n + 1)) = 2 ^ 64 * 2 ^ (64 * n) := by
      rw [Nat.mul_add, Nat.add_comm, Nat.pow_add]
    rw [hp, Nat.mod_mul]
    simp [limbs, limbsVal, ih, BitVec.toNat_ofNat]

theorem limbsVal_limbs_of_lt {n v : Nat} (h : v < 2 ^ (64 * n)) : limbsVal (limbs n v) = v := by
  rw [limbsVal_limbs, Nat.mod_eq_of_lt h]

theorem limbsVal_replicate_zero (n : Nat) : limbsVal (List.replicate n 0) = 0 := by
  induction n with
  | zero => rfl
  | succ n ih => simpa [List.replicate_succ, limbsVal] using ih

theorem limbsVal_append (l m : List Word) :
    limbsVal (l ++ m) = limbsVal l + 2 ^ (64 * l.length) * limbsVal m := by
  induction l with
  | nil => simp [limbsVal]
  | cons x xs ih =>
    have hp : (2 : Nat) ^ (64 * (x :: xs).length) = 2 ^ 64 * 2 ^ (64 * xs.length) := by
      rw [List.length_cons, Nat.mul_add, Nat.add_comm, Nat.pow_add]
    rw [hp, List.cons_append]
    simp only [limbsVal, ih]
    ring

theorem valLimbs4_lt (l : Limbs4) : valLimbs4 l < 2 ^ 256 := by
  have h0 := l.l0.isLt
  have h1 := l.l1.isLt
  have h2 := l.l2.isLt
  have h3 := l.l3.isLt
  unfold valLimbs4
  omega

@[simp] theorem valLimbs4_ofNatLimbs4 (v : Nat) : valLimbs4 (ofNatLimbs4 v) = v % 2 ^ 256 := by
  simp only [valLimbs4, ofNatLimbs4, BitVec.toNat_ofNat]
  omega

theorem valLimbs4_ofNatLimbs4_of_lt {v : Nat} (h : v < 2 ^ 256) : valLimbs4 (ofNatLimbs4 v) = v := by
  rw [valLimbs4_ofNatLimbs4, Nat.mod_eq_of_lt h]

theorem valLimbs4_injective {l m : Limbs4} (h : valLimbs4 l = valLimbs4 m) : l = m := by
  have := l.l0.isLt
  have := l.l1.isLt
  have := l.l2.isLt
  have := l.l3.isLt
  have := m.l0.isLt
  have := m.l1.isLt
  have := m.l2.isLt
  have := m.l3.isLt
  unfold valLimbs4 at h
  ext1 <;> apply BitVec.eq_of_toNat_eq <;> omega

@[simp] theorem ofNatLimbs4_valLimbs4 (l : Limbs4) : ofNatLimbs4 (valLimbs4 l) = l :=
  valLimbs4_injective (valLimbs4_ofNatLimbs4_of_lt (valLimbs4_lt l))

@[simp] theorem getLimb_setLimb_same (l : Limbs4) (i : Fin 4) (d : Word) : getLimb (setLimb l i d) i = d := by
  fin_cases i <;> rfl

theorem getLimb_setLimb_other (l : Limbs4) {i j : Fin 4} (h : j ≠ i) (d : Word) :
    getLimb (setLimb l i d) j = getLimb l j := by
  fin_cases i <;> fin_cases j <;> first | rfl | exact absurd rfl h

/-- A check on A answers its error or lets the result through. -/
theorem checkA_cases (P a : Nat) (k : Result) :
    (P ≤ a ∧ checkA P a k = .err .noncanonicalA) ∨ (a < P ∧ checkA P a k = k) := by
  unfold checkA
  split
  · exact .inl ⟨‹_›, rfl⟩
  · exact .inr ⟨by omega, rfl⟩

/-- The checks on A and B: A's error, else B's, else the result (rule R79). -/
theorem checkAB_cases (P a b : Nat) (k : Result) :
    (P ≤ a ∧ checkAB P a b k = .err .noncanonicalA) ∨
    (a < P ∧ P ≤ b ∧ checkAB P a b k = .err .noncanonicalB) ∨
    (a < P ∧ b < P ∧ checkAB P a b k = k) := by
  unfold checkAB checkA checkB
  split
  · exact .inl ⟨‹_›, rfl⟩
  · split
    · exact .inr (.inl ⟨by omega, ‹_›, rfl⟩)
    · exact .inr (.inr ⟨by omega, by omega, rfl⟩)

end Sys2Proof.Machine
end

