-- ==== Sys2Proof/Laws/Ops.lean ====
section
/-! SUPPORT. What each shared operation can do, said once: the provers cite these instead of unfolding the operations. -/

namespace Sys2Proof.Machine

/-- A completion writes R, or `EQ`, or `ERR`, and clears `BUSY` (rule R81). -/
theorem complete_cases (x : Result) (s : State) :
    (∃ v, x = .val v ∧ complete x s = { s with r := ofNatLimbs4 v, busy := false }) ∨
    (∃ e, x = .flag e ∧ complete x s = { s with eq := e, busy := false }) ∨
    (∃ c, x = .err c ∧ complete x s = { s with err := errorCode c, busy := false }) := by
  cases x with
  | val v => exact .inl ⟨v, rfl, rfl⟩
  | flag e => exact .inr (.inl ⟨e, rfl, rfl⟩)
  | err c => exact .inr (.inr ⟨c, rfl, rfl⟩)

/-- An accepted word starts a command or is recorded as illegal (rules R74 to R76). -/
theorem accept_cases (w : Word) (s : State) :
    (∃ i, decodeWord w = .ok i ∧ accept w s = start i (setLastop (opField w) (setErr .none (setOvr false s)))) ∨
    (∃ e, decodeWord w = .error e ∧
      accept w s = illegalCommand (setLastop (opField w) (setErr .none (setOvr false s)))) := by
  unfold accept
  cases h : decodeWord w with
  | ok i => exact .inl ⟨i, rfl, rfl⟩
  | error e => exact .inr ⟨e, rfl, rfl⟩

/-- A write of `CMD` is ignored while busy and accepted while idle (rule R73). -/
theorem cmdWrite_cases (w : Word) (s : State) :
    (s.busy = true ∧ cmdWrite w s = ignoreCommand s) ∨ (s.busy = false ∧ cmdWrite w s = accept w s) := by
  unfold cmdWrite
  cases s.busy <;> simp

/-- A register write stores an operand limb, is a command, or does nothing (rule R51). -/
theorem busWrite_cases (off : BitVec 8) (d : Word) (s : State) :
    (∃ i, windowReg off = .a i ∧ busWrite off d s = setA (setLimb s.a i d) s) ∨
    (∃ i, windowReg off = .b i ∧ busWrite off d s = setB (setLimb s.b i d) s) ∨
    (windowReg off = .cmd ∧ busWrite off d s = cmdWrite d s) ∨
    busWrite off d s = s := by
  unfold busWrite
  cases windowReg off with
  | a i => exact .inl ⟨i, rfl, rfl⟩
  | b i => exact .inr (.inl ⟨i, rfl, rfl⟩)
  | cmd => exact .inr (.inr (.inl ⟨rfl, rfl⟩))
  | r i => exact .inr (.inr (.inr rfl))
  | status => exact .inr (.inr (.inr rfl))
  | modulus i => exact .inr (.inr (.inr rfl))
  | reserved => exact .inr (.inr (.inr rfl))

/-- A bus access is answered with an error, with data, or after a register write (rule R49). -/
theorem busAccess_cases (t : Transaction) (s : State) :
    (t.wellFormed = false ∧ busAccess t s = respond (.error ⟨t.off, t.size⟩) s) ∨
    (t.wellFormed = true ∧ t.dir = .read ∧ busAccess t s = respond (.data (busRead Config.P t.off s)) s) ∨
    (t.wellFormed = true ∧ t.dir = .write ∧ busAccess t s = respond .done (busWrite t.off t.data s)) := by
  have h : busAccess t s = match t.wellFormed, t.dir with
      | false, _ => respond (.error ⟨t.off, t.size⟩) s
      | true, .read => respond (.data (busRead Config.P t.off s)) s
      | true, .write => respond .done (busWrite t.off t.data s) := rfl
  rw [h]
  cases t.wellFormed with
  | false => exact .inl ⟨rfl, rfl⟩
  | true =>
    cases t.dir with
    | read => exact .inr (.inl ⟨rfl, rfl, rfl⟩)
    | write => exact .inr (.inr ⟨rfl, rfl, rfl⟩)

end Sys2Proof.Machine
end

