-- ==== Sys2Proof/Laws/PerInstr.lean ====
section
/-! SUPPORT. The family of statements made per instruction: each command's word is legal and its opcode stands for it
(rules R60, R61, R64). -/

namespace Sys2Proof.Laws.CommandEncoding

/-- The command word has its opcode in `OP`, zero in `RSV`, and the opcode map gives the command back. -/
def Statement (i : Instr) : Prop :=
  i.wellFormed = true ∧ opField (encodeWord i) = opcodeOf i ∧ rsvField (encodeWord i) = 0 ∧ decodeOp (opcodeOf i) = some i

theorem fload : Statement .fload := ⟨rfl, rfl, rfl, rfl⟩
theorem fadd : Statement .fadd := ⟨rfl, rfl, rfl, rfl⟩
theorem fsub : Statement .fsub := ⟨rfl, rfl, rfl, rfl⟩
theorem fmul : Statement .fmul := ⟨rfl, rfl, rfl, rfl⟩
theorem fneg : Statement .fneg := ⟨rfl, rfl, rfl, rfl⟩
theorem finv : Statement .finv := ⟨rfl, rfl, rfl, rfl⟩
theorem feq : Statement .feq := ⟨rfl, rfl, rfl, rfl⟩

end Sys2Proof.Laws.CommandEncoding
end

