-- ==== Sys2Proof/Laws/Step.lean ====
section
/-! SUPPORT. What `exec`, the core's turn and a step can do. -/

namespace Sys2Proof.Machine

/-- Each command completes with its command function's result on the latched operands (rules R80, R81). -/
theorem exec_eq_complete (i : Instr) (s : State) : ∃ x, exec i s = .next (complete x s) := by
  cases i <;> exact ⟨_, rfl⟩

/-- What a command's completion can leave (rule R81). -/
theorem exec_cases {i : Instr} {s t : State} (h : exec i s = .next t) :
    (∃ v, t = { s with r := ofNatLimbs4 v, busy := false }) ∨
    (∃ e, t = { s with eq := e, busy := false }) ∨
    (∃ c, t = { s with err := errorCode c, busy := false }) := by
  obtain ⟨x, hx⟩ := exec_eq_complete i s
  obtain rfl : complete x s = t := by simpa [hx] using h
  obtain ⟨v, -, hv⟩ | ⟨e, -, he⟩ | ⟨c, -, hc⟩ := complete_cases x s
  · exact .inl ⟨v, hv⟩
  · exact .inr (.inl ⟨e, he⟩)
  · exact .inr (.inr ⟨c, hc⟩)

/-- The core's turn completes a legal latched command, stops on an illegal one, and passes in an idle block. -/
theorem completionStep_cases (s : State) :
    (s.busy = false ∧ completionStep s = .next s) ∨
    (∃ i, s.busy = true ∧ s.lop = opcodeOf i ∧ completionStep s = exec i s) ∨
    (s.busy = true ∧ decodeOp s.lop = none ∧ completionStep s = .fault (.illegalLatch s.lop)) := by
  unfold completionStep
  cases hb : s.busy with
  | false => exact .inl ⟨rfl, rfl⟩
  | true =>
    cases hd : decodeOp s.lop with
    | some i => exact .inr (.inl ⟨i, rfl, decodeOp_some hd, rfl⟩)
    | none => exact .inr (.inr ⟨rfl, rfl, rfl⟩)

/-- Every step is the core's turn, an access or a reset, on the state its turn has been taken from. -/
theorem step_cases (s : State) :
    (coreMovesNext s = true ∧ step s = completionStep (setAgenda s.agenda.tail s)) ∨
    (∃ x ts, s.agenda = .access x :: ts ∧ step s = .next (busAccess x (setAgenda ts s))) ∨
    (∃ ts, s.agenda = .reset :: ts ∧ step s = .next (resetBlock (setAgenda ts s))) := by
  unfold step coreMovesNext
  match h : s.agenda with
  | [] =>
    refine .inl ⟨rfl, ?_⟩
    have : setAgenda ([] : List Turn).tail s = s := by
      rw [List.tail_nil, ← h]; rfl
    rw [this]
  | .core :: ts => exact .inl ⟨rfl, rfl⟩
  | .access x :: ts => exact .inr (.inl ⟨x, ts, rfl, rfl⟩)
  | .reset :: ts => exact .inr (.inr ⟨ts, rfl, rfl⟩)

theorem run_zero (s : State) : Host.Core.run core 0 s = .next s := rfl

/-- One more step of a run of any machine that goes on. -/
theorem run_succ_next {M : Host.Core} (k : Nat) {s t : M.State} (h : M.step s = .next t) :
    M.run (k + 1) s = M.run k t := by
  simp [Host.Core.run, h]

/-- A run of any machine ends at a fault. -/
theorem run_succ_fault {M : Host.Core} (k : Nat) {s : M.State} {x : M.Fault} (h : M.step s = .fault x) :
    M.run (k + 1) s = .fault x := by
  simp [Host.Core.run, h]

/-- A run of any machine ends at a refusal. -/
theorem run_succ_refused {M : Host.Core} (k : Nat) {s : M.State} {x : M.Refusal} (h : M.step s = .refused x) :
    M.run (k + 1) s = .refused x := by
  simp [Host.Core.run, h]

/-- One more step of a run (`Host/Core.lean`), in the model's own names. -/
theorem run_succ (k : Nat) (s : State) : Host.Core.run core (k + 1) s =
    match step s with
    | .next t => Host.Core.run core k t
    | .fault x => .fault x
    | .refused x => .refused x := by
  cases h : step s with
  | next t => exact run_succ_next (M := core) k h
  | fault x => exact run_succ_fault (M := core) k h
  | refused x => exact run_succ_refused (M := core) k h

end Sys2Proof.Machine
end

