-- ==== Sys2Proof/Tests/Slice0.lean ====
section
/-! SUPPORT. The model's own tests: smoke tests of the well-formedness checks, decoding of words written out from the spec's
encodings, the spec's vectors (`95_test_vectors.md`), and a witness for the hypotheses of each statement that has some. -/

namespace Sys2Proof.Tests

open Sys2Proof Sys2Proof.Machine

/-- The example modulus of `95_test_vectors.md` section 0. -/
def pEx : Nat := 0xffffffff00000001000000000000000000000000ffffffffffffffffffffffff

/-- A small state: operands latched, a command in flight or not. -/
def st (busy : Bool) (lop : BitVec 4) (la lb : U256) (agenda : List Turn) : State :=
  { State.reset with busy := busy, lop := lop, lastop := lop, la := la, lb := lb, agenda := agenda }

/-! ### Well-formedness: each check refuses an ill-formed term -/

theorem test_wf_ok : Transaction.wellFormed ⟨.write, 0x60, 8, 2⟩ = true := by decide
theorem test_wf_size : Transaction.wellFormed ⟨.read, 0x68, 4, 0⟩ = false := by decide
theorem test_wf_alignment : Transaction.wellFormed ⟨.read, 0x64, 8, 0⟩ = false := by decide
theorem test_wf_script_ok : Script.wellFormed (scriptRUN .fadd 0 1) = true := by decide
theorem test_wf_script_write_alignment : Script.wellFormed [.w 0x01 (.lit 0)] = false := by decide
theorem test_wf_script_read_alignment : Script.wellFormed [.r 0x69 0] = false := by decide
theorem test_wf_script_branch_label : Script.wellFormed [.label 1, .bnz 0 1 2] = false := by decide
theorem test_wf_script_jump_label : Script.wellFormed [.label 1, .j 2] = false := by decide
theorem test_wf_script_label_twice : Script.wellFormed [.label 1, .label 1] = false := by decide

/-! ### Decoding: the words and bit patterns of rules R60 and R61, in the byte lanes of rule R43 -/

theorem test_decode_fload : decode [0x01, 0, 0, 0, 0, 0, 0, 0] = .ok (.fload, []) := by rfl
theorem test_decode_fadd : decode [0x02, 0, 0, 0, 0, 0, 0, 0] = .ok (.fadd, []) := by rfl
theorem test_decode_fsub : decode [0x03, 0, 0, 0, 0, 0, 0, 0] = .ok (.fsub, []) := by rfl
theorem test_decode_fmul : decode [0x04, 0, 0, 0, 0, 0, 0, 0] = .ok (.fmul, []) := by rfl
theorem test_decode_fneg : decode [0x05, 0, 0, 0, 0, 0, 0, 0] = .ok (.fneg, []) := by rfl
theorem test_decode_finv : decode [0x06, 0, 0, 0, 0, 0, 0, 0] = .ok (.finv, []) := by rfl
theorem test_decode_feq : decode [0x07, 0, 0, 0, 0, 0, 0, 0] = .ok (.feq, []) := by rfl

theorem test_decode_bits_fmul : decodeTableWord 64
    0b0000000000000000000000000000000000000000000000000000000000000100 = some .fmul := by decide
theorem test_decode_bits_finv : decodeTableWord 64
    0b0000000000000000000000000000000000000000000000000000000000000110 = some .finv := by decide

/-- Rule R64: opcode 8 and opcode 0 (V68, V69). -/
theorem test_decode_opcode_illegal :
    decodeWord 0x8 = .error (.opcode 8) ∧ decodeWord 0x0 = .error (.opcode 0) := ⟨rfl, rfl⟩
/-- Rule R64: a reserved bit set, whatever the opcode (V70, V71). -/
theorem test_decode_reserved_illegal :
    decodeWord 0x17 = .error (.reservedBits 1) ∧
    decodeWord 0x8000000000000002 = .error (.reservedBits 0x800000000000000) := ⟨rfl, rfl⟩
/-- Seven bytes are no command word (rule R59). -/
theorem test_decode_short : decode [0x02, 0, 0, 0, 0, 0, 0] = .error (.short 7) := by rfl

/-! ### Limb arithmetic: V1, V4, V7, V9, V10, V12, V14, V15 -/

theorem test_add_limbs_ripple :
    addLimbs [0xffffffffffffffff, 0xffffffffffffffff, 0xffffffffffffffff, 0xffffffffffffffff] [1, 0, 0, 0] =
      ([0, 0, 0, 0], 1) := by decide
theorem test_add_limbs_carry_in :
    addLimbs [0xffffffffffffffff, 0xffffffffffffffff, 0xffffffffffffffff, 0xffffffffffffffff]
      [0xffffffffffffffff, 0xffffffffffffffff, 0xffffffffffffffff, 0xffffffffffffffff] =
      ([0xfffffffffffffffe, 0xffffffffffffffff, 0xffffffffffffffff, 0xffffffffffffffff], 1) := by decide
theorem test_sub_limbs_ripple :
    subLimbs [0, 0, 1, 0] [1, 0, 0, 0] = ([0xffffffffffffffff, 0xffffffffffffffff, 0, 0], 0) := by decide
theorem test_sub_limbs_borrow_out :
    subLimbs [0, 0, 0, 1] [0, 0, 0, 2] = ([0, 0, 0, 0xffffffffffffffff], 1) := by decide
theorem test_mul64_largest : mul64 0xffffffffffffffff 0xffffffffffffffff = (0xfffffffffffffffe, 1) := by decide
theorem test_mul64_carry : mul64 0x100000000 0x100000000 = (1, 0) := by decide
theorem test_mul_limbs_largest :
    mulLimbs [0xffffffffffffffff, 0xffffffffffffffff, 0xffffffffffffffff, 0xffffffffffffffff]
      [0xffffffffffffffff, 0xffffffffffffffff, 0xffffffffffffffff, 0xffffffffffffffff] =
      [1, 0, 0, 0, 0xfffffffffffffffe, 0xffffffffffffffff, 0xffffffffffffffff, 0xffffffffffffffff] := by decide
theorem test_mul_limbs_sparse :
    mulLimbs [3, 0, 1, 0] [7, 0, 0, 0x100] = [0x15, 0, 7, 0x300, 0, 0x100, 0, 0] := by decide

/-! ### Commands: V22, V26, V32, V37, V38, V40, V43, V47, V54, V60, V63, at the moduli of `95_test_vectors.md` -/

theorem test_fload_above_square : floadResult 13 (2 ^ 256 - 1) = .val 2 := by decide +kernel
theorem test_fload_reduces : floadResult pEx (pEx + 5) = .val 5 := by decide +kernel
theorem test_fadd_carry_out : faddResult pEx (pEx - 1) (pEx - 1) = .val (pEx - 2) := by decide
theorem test_fadd_noncanonical_b : faddResult pEx 3 pEx = .err .noncanonicalB := by decide
theorem test_fsub_borrow : fsubResult pEx 0 (pEx - 1) = .val 1 := by decide
theorem test_fsub_small : fsubResult 13 3 7 = .val 9 := by decide
theorem test_fneg_zero : fnegResult pEx 0 = .val 0 := by decide
theorem test_fneg_largest : fnegResult pEx (pEx - 1) = .val 1 := by decide
theorem test_fmul_sparse : fmulResult pEx (2 ^ 128 + 3) (2 ^ 200 + 7) =
    .val 0xfffffeff00000300fffffeffffffff0700000001000001000000010000000014 := by decide +kernel
theorem test_fmul_both_noncanonical : fmulResult pEx pEx pEx = .err .noncanonicalA := by decide
theorem test_finv_third : finvResult pEx 3 =
    .val 0xaaaaaaaa00000000aaaaaaaaaaaaaaaaaaaaaaab555555555555555555555555 := by decide
theorem test_finv_general : finvResult pEx 0x1234 =
    .val 0x1d0f9a09fea0697a1212e5d9c3ca62015186433ddc74e72b4a0d9fc0b6d3646c := by decide
theorem test_feq_unequal : feqResult pEx 3 4 = .flag false := by decide
theorem test_feq_equal : feqResult pEx 5 5 = .flag true := by decide

/-- The trace of rule R124: the loop's last `old_t` is -5. -/
theorem test_euclid_trace : euclidLoop 5 13 5 0 1 = -5 := by decide

/-! ### The window and the command lifecycle: V68, V72, V73, V74, V83, V85, V86, V88 -/

/-- V68: `W 0x60, 0x8` in the idle state gives `STATUS = 0x8400`. -/
theorem test_status_illegal : statusWord (busAccess ⟨.write, 0x60, 8, 0x8⟩ (st false 0 0 0 [])) = 0x8400 := by decide
/-- V72: an accepted FADD before its completion gives `0x2001`. -/
theorem test_status_started : statusWord (busAccess ⟨.write, 0x60, 8, 0x2⟩ (st false 0 0 0 [])) = 0x2001 := by decide
/-- V73: a second command before the completion gives `0x2005`. -/
theorem test_status_overrun : statusWord (busAccess ⟨.write, 0x60, 8, 0x4⟩ (st true 2 0 0 [])) = 0x2005 := by decide
/-- V82: FINV of zero completes with `0x6100`. -/
theorem test_status_division : statusWord (complete (finvResult 13 0) (st true 6 0 0 [])) = 0x6100 := by decide
/-- V42: FEQ of equal operands completes with `0x7002`. -/
theorem test_status_equal : statusWord (complete (feqResult 13 5 5) (st true 7 5 5 [])) = 0x7002 := by decide
/-- V86: a 4-byte read of `STATUS` and an 8-byte read of offset 0x64 are bus errors. -/
theorem test_bus_errors :
    (busAccess ⟨.read, 0x68, 4, 0⟩ (st false 0 0 0 [])).response = some (.error ⟨0x68, 4⟩) ∧
    (busAccess ⟨.read, 0x64, 8, 0⟩ (st false 0 0 0 [])).response = some (.error ⟨0x64, 8⟩) := by decide
/-- V88: `CMD` and a reserved offset read 0. -/
theorem test_reads_zero :
    (busAccess ⟨.read, 0x60, 8, 0⟩ (st true 2 0 0 [])).response = some (.data 0) ∧
    (busAccess ⟨.read, 0xF8, 8, 0⟩ (st true 2 0 0 [])).response = some (.data 0) := by decide

/-- Each row's word, placed for the next step, is run by it as the first command after reset. -/
theorem test_place_and_run :
    step (State.reset.withFetchWord 64 2) = exec .fadd (setAgenda [] (State.reset.withFetchWord 64 2)) ∧
    step (State.reset.withFetchWord 64 6) = exec .finv (setAgenda [] (State.reset.withFetchWord 64 6)) := ⟨rfl, rfl⟩

/-! ### Witnesses: states and operands that meet the hypotheses of the statements, at the ends of their ranges -/

/-- The largest canonical value as a latched operand. -/
def top : U256 := BitVec.ofNat 256 (Config.P - 1)

/-- The smallest value that is not canonical. -/
def tooBig : U256 := BitVec.ofNat 256 Config.P

theorem top_toNat : top.toNat = Config.P - 1 := by
  have := Config.P_lt
  rw [top, BitVec.toNat_ofNat, Nat.mod_eq_of_lt (by omega)]

theorem tooBig_toNat : tooBig.toNat = Config.P := by
  rw [tooBig, BitVec.toNat_ofNat, Nat.mod_eq_of_lt Config.P_lt]

theorem top_lt : top.toNat < Config.P := by
  have := Config.P_pos
  rw [top_toNat]; omega

theorem witness_DecodeEncodeAgree : Instr.fload.wellFormed = true ∧ Instr.feq.wellFormed = true := ⟨rfl, rfl⟩

theorem witness_StepRunsLatchedCommand : ∃ s t : State,
    coreMovesNext s = true ∧ s.busy = true ∧ s.lop = opcodeOf .fload ∧ s.agenda = [] ∧
    coreMovesNext t = true ∧ t.busy = true ∧ t.lop = opcodeOf .feq ∧ t.agenda = [.core, .reset] :=
  ⟨st true 1 0 0 [], st true 7 0 0 [.core, .reset], rfl, rfl, rfl, rfl, rfl, rfl, rfl, rfl⟩

theorem witness_PlacedCommandRuns : decodeTableWord 64 1 = some .fload ∧ decodeTableWord 64 7 = some .feq := by decide

theorem witness_CommandWriteThenCompletion : ∃ (s : State) (w : Word), s.busy = false ∧ decodeWord w = .ok .fmul ∧
    s.agenda = [.access ⟨.write, 0x60, 8, w⟩, .core] :=
  ⟨st false 0 0 0 [.access ⟨.write, 0x60, 8, 4⟩, .core], 4, rfl, rfl, rfl⟩

theorem witness_StepTakesTheNextTurn :
    (st true 1 0 0 [.access ⟨.read, 0x68, 8, 0⟩]).agenda = [.access ⟨.read, 0x68, 8, 0⟩] ∧
    (st true 1 0 0 [.reset]).agenda = [.reset] ∧
    (st false 0 0 0 [.core]).busy = false ∧ (st false 0 0 0 [.core]).agenda = [.core] ∧
    (st false 0 0 0 []).busy = false ∧ (st false 0 0 0 []).agenda = [] := ⟨rfl, rfl, rfl, rfl, rfl, rfl⟩

theorem witness_LegalCommandIsAccepted :
    (st false 0 0 0 []).busy = false ∧ decodeWord 1 = .ok .fload ∧ decodeWord 7 = .ok .feq := ⟨rfl, rfl, rfl⟩

theorem witness_IllegalCommandIsRecorded :
    (st false 0 0 0 []).busy = false ∧ (st false 0 0 0 []).eq = false ∧ decodeWord 0x8 = .error (.opcode 8) ∧
    decodeWord 0x11 = .error (.reservedBits 1) := ⟨rfl, rfl, rfl, rfl⟩

theorem witness_BusyCommandIsIgnored : (st true 1 0 0 []).busy = true := rfl

theorem witness_ReadsReturnTheRegisters :
    (0x00 : BitVec 8).toNat % 8 = 0 ∧ (0xF8 : BitVec 8).toNat % 8 = 0 ∧ 0xA0 ≤ (0xF8 : BitVec 8).toNat ∧
    (0xA0 : BitVec 8).toNat % 8 = 0 ∧ 0xA0 ≤ (0xA0 : BitVec 8).toNat ∧
    (0x70 : BitVec 8).toNat % 8 = 0 ∧ (0x78 : BitVec 8).toNat % 8 = 0 := by decide

theorem witness_ReadOnlyWritesAreIgnored :
    (0x40 : BitVec 8).toNat % 8 = 0 ∧ 0x40 ≤ (0x40 : BitVec 8).toNat ∧ (0x40 : BitVec 8).toNat ≠ 0x60 ∧
    (0xF8 : BitVec 8).toNat % 8 = 0 ∧ 0x40 ≤ (0xF8 : BitVec 8).toNat ∧ (0xF8 : BitVec 8).toNat ≠ 0x60 ∧
    (0x60 : BitVec 8).toNat % 8 = 0 ∧ (0x60 : BitVec 8).toNat = 0x60 := by decide

theorem witness_ReadAfterOperandWrite :
    (0x38 : BitVec 8).toNat % 8 = 0 ∧ (0x38 : BitVec 8).toNat < 0x40 ∧
    (0x40 : BitVec 8).toNat % 8 = 0 ∧ (0x40 : BitVec 8) ≠ 0x38 := by decide

theorem witness_OperandWritesCommute :
    (0x00 : BitVec 8) ≠ 0x38 ∧ (0x00 : BitVec 8).toNat % 8 = 0 ∧ (0x00 : BitVec 8).toNat < 0x40 ∧
    (0x38 : BitVec 8).toNat % 8 = 0 ∧ (0x38 : BitVec 8).toNat < 0x40 := by decide

theorem witness_BusErrorChangesNothing :
    (⟨.read, 0x68, 4, 0⟩ : Transaction).size ≠ 8 ∧ (⟨.write, 0x07, 8, 0⟩ : Transaction).off.toNat % 8 ≠ 0 := by decide

theorem witness_ModulusRegistersReadP : ∃ s t : State, step s = .next t := ⟨st false 0 0 0 [], _, rfl⟩

theorem witness_WindowBytesAreLittleEndian : ∃ addr, (0 : Nat) < 32 ∧ 31 < 32 ∧
    (addr < Config.BASE ∨ Config.BASE + 256 ≤ addr) :=
  ⟨Config.BASE + 256, by decide, by decide, .inr le_rfl⟩

/-- For FADD, FSUB, FMUL and FEQ: both operands at the top of the canonical range, and both at its bottom. -/
theorem witness_canonical_operands : ∃ s t : State,
    s.la.toNat < Config.P ∧ s.lb.toNat < Config.P ∧ s.la = top ∧ t.la.toNat = 0 ∧ t.lb.toNat = 0 ∧
    t.la.toNat < Config.P ∧ t.lb.toNat < Config.P :=
  ⟨st true 2 top top [], st true 2 0 0 [], top_lt, top_lt, rfl, rfl, rfl, Config.P_pos, Config.P_pos⟩

/-- For FNEG and FINV: A at the top of the range with a B that is not canonical; zero; and one. -/
theorem witness_unary_operands : ∃ s t u : State,
    0 < s.la.toNat ∧ s.la.toNat < Config.P ∧ Config.P ≤ s.lb.toNat ∧ t.la.toNat = 0 ∧ t.la.toNat < Config.P ∧
    u.la.toNat = 1 ∧ u.la.toNat < Config.P := by
  have h3 := Config.three_le_P
  refine ⟨st true 6 top tooBig [], st true 6 0 0 [], st true 6 1 0 [], ?_, top_lt, tooBig_toNat.ge, rfl, Config.P_pos, rfl, ?_⟩
  · show 0 < top.toNat
    rw [top_toNat]; omega
  · show 1 < Config.P
    omega

theorem witness_NoncanonicalAIsReported : ∃ s : State, Config.P ≤ s.la.toNat ∧ s.la.toNat = Config.P :=
  ⟨st true 2 tooBig 0 [], tooBig_toNat.ge, tooBig_toNat⟩

theorem witness_NoncanonicalBIsReported : ∃ s : State,
    s.la.toNat < Config.P ∧ Config.P ≤ s.lb.toNat ∧ s.lb.toNat = Config.P :=
  ⟨st true 2 top tooBig [], top_lt, tooBig_toNat.ge, tooBig_toNat⟩

/-- FINV of zero: a completion from `ERR = NONE` that reports code 1. -/
theorem witness_DivisionByZeroIsReported : ∃ s t : State,
    s.la.toNat = 0 ∧ s.err = 0 ∧ exec .finv s = .next t ∧ t.err = 1 := by
  refine ⟨st true 6 0 0 [], _, rfl, rfl, rfl, ?_⟩
  have h : finvResult Config.P 0 = .err .divByZero := by
    simp [finvResult, checkA, Config.P_pos.ne']
  show (complete (finvResult Config.P 0) _).err = 1
  rw [h]; rfl

/-- For the statements about every completion: each command completes from some state, an R that changes among them. -/
theorem witness_completions : ∃ s t u v : State,
    exec .fload s = .next t ∧ exec .feq s = .next u ∧ exec .fneg s = .next v ∧ v.r ≠ s.r := by
  refine ⟨{ st true 5 0 0 [] with r := ⟨1, 0, 0, 0⟩ }, _, _, _, rfl, rfl, rfl, ?_⟩
  have h : fnegResult Config.P 0 = .val 0 := by
    simp [fnegResult, checkA, Config.P_pos.ne', fneg]
  show (complete (fnegResult Config.P 0) _).r ≠ _
  rw [h]; decide

theorem witness_CompletionFrame : ∃ addr, (addr < Config.BASE + 0x40 ∨ Config.BASE + 0x60 ≤ addr) ∧
    (addr < Config.BASE + 0x68 ∨ Config.BASE + 0x70 ≤ addr) ∧ addr = Config.BASE + 0x3F :=
  ⟨Config.BASE + 0x3F, .inl (by omega), .inl (by omega), rfl⟩

theorem witness_ResultsAreCanonical : ∃ v, floadResult Config.P (0 : U256).toNat = .val v := ⟨_, rfl⟩

theorem witness_CommandReadsOnlyItsLatches : ∃ s t : State, s.la = t.la ∧ s.lb = t.lb ∧ s ≠ t :=
  ⟨st true 1 0 0 [], st false 1 0 0 [], rfl, rfl, fun h => by cases congrArg State.busy h⟩

theorem witness_limb_lengths : ([] : List Word).length = ([] : List Word).length ∧
    ([1, 2, 3, 4] : List Word).length = ([5, 6, 7, 8] : List Word).length := ⟨rfl, rfl⟩

theorem witness_ReducerIsRemainder : (0 : Nat) < 1 ∧ 1 < 2 ^ 256 ∧ (0 : Nat) < 2 ^ 256 - 1 ∧ 2 ^ 256 - 1 < 2 ^ 256 ∧
    2 ^ 256 * 2 ^ 256 - 1 < 2 ^ 256 * 2 ^ 256 := by norm_num

/-- The field laws: the smallest modulus and the largest the four limbs hold, with operands at the ends. -/
theorem witness_field_laws : (3 : Nat) < 2 ^ 256 ∧ 0 < 3 ∧ 2 < 3 ∧ 1 < 3 ∧
    2 ^ 256 - 1 < 2 ^ 256 ∧ 2 ^ 256 - 2 < 2 ^ 256 - 1 ∧ 1 < 2 ^ 256 - 1 := by norm_num

/-- The inversion laws: the smallest admissible modulus, and 13 with the operands 1 and 12. -/
theorem witness_inversion_laws : Config.Admissible 3 ∧ Config.Admissible 13 ∧ 0 < 1 ∧ 1 < 13 ∧ 12 < 13 := by
  refine ⟨⟨Nat.prime_three, le_rfl, by norm_num⟩, ⟨by norm_num, by norm_num, by norm_num⟩, ?_, ?_, ?_⟩ <;> norm_num

/-- A state with a command in flight meets the invariant. -/
theorem st_inv {busy lop la lb agenda} (h : busy = true → 1 ≤ lop.toNat ∧ lop.toNat ≤ 7) :
    BlockInv (st busy lop la lb agenda) where
  err_le := by show (0 : BitVec 4).toNat ≤ 4; decide
  lop_legal := h
  err_none := fun _ => rfl
  lastop_eq := fun _ => rfl
  r_canonical := Config.P_pos

theorem witness_StepKeepsTheInvariant : ∃ s t : State, BlockInv s ∧ s.busy = true ∧ step s = .next t :=
  ⟨st true 7 top tooBig [.core], _, st_inv (by decide), rfl, rfl⟩

theorem witness_ReachableStatesAreLegal :
    ∃ t, Host.Core.run core 1 (setAgenda [.access ⟨.write, 0x60, 8, 7⟩] State.reset) = .next t ∧ t.busy = true :=
  ⟨_, rfl, by decide⟩

theorem witness_NoStuckState : ∃ s : State, CommandInv s ∧ s.busy = true :=
  ⟨st true 1 0 0 [], (st_inv (by decide)).toCommandInv, rfl⟩

theorem witness_CommandCompletes : ∃ s : State, CommandInv s ∧ s.busy = true ∧ Turn.reset ∉ s.agenda ∧ s.agenda ≠ [] :=
  ⟨st true 7 0 0 [.access ⟨.read, 0x68, 8, 0⟩], (st_inv (by decide)).toCommandInv, rfl, by decide, by decide⟩

/-- R changes in a completion (FNEG of zero over an R of one) and in a reset. -/
theorem witness_ResultChangesOnlyByCompletion : ∃ s t u v : State,
    step s = .next t ∧ t.r ≠ s.r ∧ s.busy = true ∧ step u = .next v ∧ v.r ≠ u.r := by
  refine ⟨{ st true 5 0 0 [] with r := ⟨1, 0, 0, 0⟩ }, _, { st true 5 0 0 [.reset] with r := ⟨1, 0, 0, 0⟩ }, _,
    rfl, ?_, rfl, rfl, by decide⟩
  have h : fnegResult Config.P 0 = .val 0 := by
    simp [fnegResult, checkA, Config.P_pos.ne', fneg]
  show (complete (fnegResult Config.P 0) _).r ≠ _
  rw [h]; decide

/-- `EQ` changes in the completion of an FEQ, and in a reset. -/
theorem witness_EqualityFlagChanges : ∃ s t u v : State,
    step s = .next t ∧ coreMovesNext s = true ∧ s.busy = true ∧ s.lop = opcodeOf .feq ∧
    s.la.toNat < Config.P ∧ s.lb.toNat < Config.P ∧ t.eq ≠ s.eq ∧
    step u = .next v ∧ (∃ ts, u.agenda = .reset :: ts) ∧ v.eq ≠ u.eq := by
  refine ⟨st true 7 0 0 [], _, { st true 7 0 0 [.reset] with eq := true }, _, rfl, rfl, rfl, rfl, Config.P_pos,
    Config.P_pos, ?_, rfl, ⟨[], rfl⟩, by decide⟩
  have h : feqResult Config.P 0 0 = .flag true := by
    simp [feqResult, checkAB, checkA, checkB, Config.P_pos.ne', feqFlag]
  show (complete (feqResult Config.P 0 0) _).eq ≠ _
  rw [h]; decide

/-- `OVR` is set by a write while busy, cleared by an accepted command, and cleared by a reset. -/
theorem witness_OverrunFlagChanges : ∃ s t u v x y : State,
    step s = .next t ∧ s.agenda = [.access ⟨.write, 0x60, 8, 2⟩] ∧ t.ovr ≠ s.ovr ∧
    step u = .next v ∧ u.agenda = [.access ⟨.write, 0x60, 8, 2⟩] ∧ v.ovr ≠ u.ovr ∧
    step x = .next y ∧ x.agenda = [.reset] ∧ y.ovr ≠ x.ovr :=
  ⟨st true 1 0 0 [.access ⟨.write, 0x60, 8, 2⟩], _, { st false 1 0 0 [.access ⟨.write, 0x60, 8, 2⟩] with ovr := true }, _,
    { st true 1 0 0 [.reset] with ovr := true }, _, rfl, rfl, by decide, rfl, rfl, by decide, rfl, rfl, by decide⟩

theorem witness_CommandInFlightIsUndisturbed : ∃ (s : State) (x : Transaction), s.busy = true ∧ busAccess x s ≠ s :=
  ⟨st true 1 0 0 [], ⟨.write, 0x60, 8, 2⟩, rfl, fun h => by
    have := congrArg State.ovr h
    revert this; decide⟩

theorem witness_IdleLatchesAreUnobservable : ∃ s t : State, SameButIdleLatches s t ∧ s ≠ t :=
  ⟨st false 1 0 0 [], { st false 1 0 0 [] with la := 1 }, ⟨rfl, fun h => by cases h⟩, fun h => by
    have := congrArg State.la h
    revert this; decide⟩

/-- A reset of a busy block with a turn waiting behind it, and one of an idle block. -/
theorem witness_ResetAbortsTheCommand : ∃ s t : State,
    s.busy = true ∧ s.agenda = [.reset, .core] ∧ t.busy = false ∧ t.agenda = [.reset] :=
  ⟨st true 6 5 0 [.reset, .core], st false 6 5 0 [.reset], rfl, rfl, rfl, rfl⟩

/-- Both arms of a `POLL` pass: a busy and an idle block. -/
theorem witness_ScriptPollsWhileBusy : (st true 1 0 0 []).busy = true ∧ (st false 1 0 0 []).busy = false := ⟨rfl, rfl⟩

end Sys2Proof.Tests
end

namespace Sys2Proof.Machine

open Sys2Proof

/-! ### The word a read of `STATUS` returns (rules R22, R29) -/

/-- Appending puts the second vector below the first. -/
theorem toNat_append_eq_add {m n : Nat} (x : BitVec m) (y : BitVec n) :
    (x ++ y).toNat = x.toNat * 2 ^ n + y.toNat := by
  rw [BitVec.toNat_append, ← Nat.shiftLeft_add_eq_or_of_lt y.isLt, Nat.shiftLeft_eq]

/-- Rule R22: each field of `STATUS` stands at its own position and nothing stands between. -/
theorem statusWord_toNat (s : State) : (statusWord s).toNat =
    s.busy.toNat + 2 * s.eq.toNat + 4 * s.ovr.toNat + 256 * s.err.toNat + 4096 * s.lastop.toNat := by
  have herr := s.err.isLt
  have hlast := s.lastop.isLt
  have hovr := s.ovr.toNat_lt
  have heq := s.eq.toNat_lt
  have hbusy := s.busy.toNat_lt
  simp only [statusWord, toNat_append_eq_add, BitVec.toNat_ofBool, BitVec.toNat_ofNat]
  omega

theorem readWord_status (s : State) : readWord 0x68 s = statusWord s := rfl

/-- A slice of a word, as arithmetic on the number the word denotes. -/
theorem extractLsb'_eq_iff {n : Nat} (w : Word) (lo : Nat) (v : BitVec n) :
    w.extractLsb' lo n = v ↔ w.toNat / 2 ^ lo % 2 ^ n = v.toNat := by
  rw [← BitVec.toNat_inj, BitVec.extractLsb'_toNat, Nat.shiftRight_eq_div_pow]

/-- Settles O12: each slice is read off the sum `statusWord_toNat` writes out. -/
theorem statusReservedBitsReadZero : Obligations.StatusReservedBitsReadZero := by
  intro s
  have herr := s.err.isLt
  have hlast := s.lastop.isLt
  have hovr := s.ovr.toNat_lt
  have heq := s.eq.toNat_lt
  have hbusy := s.busy.toNat_lt
  simp only [readWord_status, extractLsb'_eq_iff, statusWord_toNat, BitVec.toNat_ofBool]
  simp only [BitVec.ofNat_eq_ofNat, BitVec.toNat_ofNat]
  omega

/-! ### The modulus registers (rule R20) -/

/-- A modulus register reads its limb of `P`, in every state. -/
theorem readWord_modulus (s : State) :
    readWord 0x80 s = (ofNatLimbs4 Config.P).l0 ∧ readWord 0x88 s = (ofNatLimbs4 Config.P).l1 ∧
    readWord 0x90 s = (ofNatLimbs4 Config.P).l2 ∧ readWord 0x98 s = (ofNatLimbs4 Config.P).l3 :=
  ⟨rfl, rfl, rfl, rfl⟩

/-- Settles O18: the four words are the limbs of `P`, which no state has a part in. -/
theorem modulusRegistersReadP : Obligations.ModulusRegistersReadP := by
  refine ⟨fun s => ?_, fun s t _ => ?_⟩
  · obtain ⟨h0, h1, h2, h3⟩ := readWord_modulus s
    rw [h0, h1, h2, h3]
    exact ⟨BitVec.toNat_ofNat .., BitVec.toNat_ofNat .., BitVec.toNat_ofNat .., BitVec.toNat_ofNat ..,
      valLimbs4_ofNatLimbs4_of_lt Config.P_lt⟩
  · simp only [readWord_modulus, and_self]

/-! ### What a step that answers a next state has done (rules R13, R81) -/

/-- The core's turn passes, or is the completion of the latched command. -/
theorem completionStep_next {s t : State} (h : completionStep s = .next t) :
    (s.busy = false ∧ t = s) ∨ (∃ i, s.busy = true ∧ s.lop = opcodeOf i ∧ exec i s = .next t) := by
  obtain ⟨hb, hc⟩ | ⟨i, hb, hl, hc⟩ | ⟨-, -, hc⟩ := completionStep_cases s
  · rw [hc] at h; cases h
    exact .inl ⟨hb, rfl⟩
  · exact .inr ⟨i, hb, hl, hc ▸ h⟩
  · rw [hc] at h; cases h

/-- `step_cases` for a step that answers a next state. -/
theorem step_next {s t : State} (h : step s = .next t) :
    (coreMovesNext s = true ∧ completionStep (setAgenda s.agenda.tail s) = .next t) ∨
    (∃ x ts, s.agenda = .access x :: ts ∧ t = busAccess x (setAgenda ts s)) ∨
    (∃ ts, s.agenda = .reset :: ts ∧ t = resetBlock (setAgenda ts s)) := by
  obtain ⟨hm, hs⟩ | ⟨x, ts, ha, hs⟩ | ⟨ts, ha, hs⟩ := step_cases s <;> rw [hs] at h
  · exact .inl ⟨hm, h⟩
  · cases h; exact .inr (.inl ⟨x, ts, ha, rfl⟩)
  · cases h; exact .inr (.inr ⟨ts, ha, rfl⟩)

theorem step_access {s t : State} {x : Transaction} {ts : List Turn} (ha : s.agenda = .access x :: ts)
    (h : step s = .next t) : t = busAccess x (setAgenda ts s) := by
  simpa [step, ha, takeTurn, eq_comm] using h

theorem step_reset {s t : State} {ts : List Turn} (ha : s.agenda = .reset :: ts)
    (h : step s = .next t) : t = resetBlock (setAgenda ts s) := by
  simpa [step, ha, takeTurn, eq_comm] using h

/-! ### The overrun flag (rule R26) -/

/-- An aligned 8-byte write is performed and answered as done (rule R51). -/
theorem busAccess_write {off : BitVec 8} (h : off.toNat % 8 = 0) (d : Word) (s : State) :
    busAccess ⟨.write, off, 8, d⟩ s = respond .done (busWrite off d s) := by
  simp [busAccess, h]

theorem busAccess_cmd (w : Word) (s : State) :
    busAccess ⟨.write, 0x60, 8, w⟩ s = respond .done (cmdWrite w s) :=
  busAccess_write (by decide) w s

/-- `CMD` stands at one offset only (rule R45). -/
theorem windowReg_eq_cmd {off : BitVec 8} (h : windowReg off = .cmd) : off = 0x60 := by
  revert off; decide

/-- A well-formed write whose register is `CMD` is the transaction a host writes a command with. -/
theorem eq_cmdTransaction {x : Transaction} (hwf : x.wellFormed = true) (hdir : x.dir = .write)
    (hreg : windowReg x.off = .cmd) : x = cmdTransaction x.data := by
  obtain ⟨dir, off, size, data⟩ := x
  obtain rfl : dir = .write := hdir
  obtain rfl : off = 0x60 := windowReg_eq_cmd hreg
  obtain rfl : size = 8 := by simpa [Transaction.wellFormed] using hwf
  rfl

theorem accept_ovr (w : Word) (s : State) : (accept w s).ovr = false := by
  obtain ⟨i, -, h⟩ | ⟨e, -, h⟩ := accept_cases w s <;> rw [h] <;> rfl

/-- A command write leaves the `BUSY` it found in `OVR`: an ignored one sets the flag, an accepted one clears it. -/
theorem cmdWrite_ovr (w : Word) (s : State) : (cmdWrite w s).ovr = s.busy := by
  obtain ⟨hb, h⟩ | ⟨hb, h⟩ := cmdWrite_cases w s
  · rw [h, hb]; rfl
  · rw [h, hb, accept_ovr]

/-- An access writes a command or leaves `OVR` alone. -/
theorem busAccess_ovr (x : Transaction) (s : State) :
    x = cmdTransaction x.data ∨ (busAccess x s).ovr = s.ovr := by
  obtain ⟨-, h⟩ | ⟨-, -, h⟩ | ⟨hwf, hdir, h⟩ := busAccess_cases x s
  · exact .inr (by rw [h]; rfl)
  · exact .inr (by rw [h]; rfl)
  · obtain ⟨i, -, hw⟩ | ⟨i, -, hw⟩ | ⟨hreg, -⟩ | hw := busWrite_cases x.off x.data s
    · exact .inr (by rw [h, hw]; rfl)
    · exact .inr (by rw [h, hw]; rfl)
    · exact .inl (eq_cmdTransaction hwf hdir hreg)
    · exact .inr (by rw [h, hw]; rfl)

theorem exec_ovr {i : Instr} {s t : State} (h : exec i s = .next t) : t.ovr = s.ovr := by
  obtain ⟨v, rfl⟩ | ⟨e, rfl⟩ | ⟨c, rfl⟩ := exec_cases h <;> rfl

theorem completionStep_ovr {s t : State} (h : completionStep s = .next t) : t.ovr = s.ovr := by
  obtain ⟨-, rfl⟩ | ⟨i, -, -, h⟩ := completionStep_next h
  · rfl
  · exact exec_ovr h

/-- Settles O54, by the agent that moves: the core leaves `OVR` alone, an access changes it only as a command write, and a
reset clears it. -/
theorem overrunFlagChanges : Obligations.OverrunFlagChanges := by
  refine ⟨rfl, fun s t h => ⟨fun w ts ha => ?_, fun ⟨ts, ha⟩ => ?_, fun hne => ?_⟩⟩
  · rw [step_access ha h, busAccess_cmd, respond_ovr, cmdWrite_ovr, setAgenda_busy]
  · rw [step_reset ha h, resetBlock_ovr]
  · obtain ⟨-, hc⟩ | ⟨x, ts, ha, rfl⟩ | ⟨ts, ha, -⟩ := step_next h
    · exact absurd (completionStep_ovr hc) hne
    · obtain hx | hx := busAccess_ovr x (setAgenda ts s)
      · exact .inr ⟨x.data, ts, by rw [ha, hx]; rfl⟩
      · exact absurd hx hne
    · exact .inl ⟨ts, ha⟩

end Sys2Proof.Machine

namespace Sys2Proof.Machine

open Sys2Proof

/-! ### The carries and borrows of the limb loops (rules R87 to R90) -/

theorem two_pow_limbs_succ (n : Nat) : 2 ^ (64 * (n + 1)) = 2 ^ 64 * 2 ^ (64 * n) := by
  rw [Nat.mul_succ, Nat.add_comm, Nat.pow_add]

theorem addLimbsFrom_length (c : Nat) (a b : List Word) (h : a.length = b.length) :
    (addLimbsFrom c a b).1.length = a.length := by
  induction a generalizing b c with
  | nil => rfl
  | cons x xs ih =>
    obtain _ | ⟨y, ys⟩ := b
    · cases h
    · exact congrArg (· + 1) (ih _ ys (Nat.succ.inj h))

/-- Rule R88 from any carry on: with its carry out, the sum loses nothing. -/
theorem addLimbsFrom_exact (c : Nat) (a b : List Word) (h : a.length = b.length) :
    limbsVal (addLimbsFrom c a b).1 + (addLimbsFrom c a b).2 * 2 ^ (64 * a.length) =
      limbsVal a + limbsVal b + c := by
  induction a generalizing b c with
  | nil =>
    obtain rfl : b = [] := List.length_eq_zero_iff.mp h.symm
    simp [addLimbsFrom, limbsVal]
  | cons x xs ih =>
    obtain _ | ⟨y, ys⟩ := b
    · cases h
    · have hxs := ih ((x.toNat + y.toNat + c) / 2 ^ 64) ys (Nat.succ.inj h)
      simp only [addLimbsFrom, limbsVal, List.length_cons, two_pow_limbs_succ, Nat.mul_left_comm _ (2 ^ 64),
        BitVec.toNat_ofNat]
      omega

theorem addLimbs_length {a b : List Word} (h : a.length = b.length) : (addLimbs a b).1.length = a.length :=
  addLimbsFrom_length 0 a b h

/-- The law of rule R88. -/
theorem addLimbs_exact {a b : List Word} (h : a.length = b.length) :
    limbsVal (addLimbs a b).1 + (addLimbs a b).2 * 2 ^ (64 * a.length) = limbsVal a + limbsVal b :=
  addLimbsFrom_exact 0 a b h

theorem subLimbsFrom_length (w : Nat) (a b : List Word) (h : a.length = b.length) :
    (subLimbsFrom w a b).1.length = a.length := by
  induction a generalizing b w with
  | nil => rfl
  | cons x xs ih =>
    obtain _ | ⟨y, ys⟩ := b
    · cases h
    · exact congrArg (· + 1) (ih _ ys (Nat.succ.inj h))

/-- Rule R90 from any borrow on: with its borrow out, the difference loses nothing. -/
theorem subLimbsFrom_exact (w : Nat) (hw : w ≤ 1) (a b : List Word) (h : a.length = b.length) :
    (limbsVal (subLimbsFrom w a b).1 : Int) - (subLimbsFrom w a b).2 * 2 ^ (64 * a.length) =
      (limbsVal a : Int) - limbsVal b - w := by
  induction a generalizing b w with
  | nil =>
    obtain rfl : b = [] := List.length_eq_zero_iff.mp h.symm
    simp [subLimbsFrom, limbsVal]
  | cons x xs ih =>
    obtain _ | ⟨y, ys⟩ := b
    · cases h
    · have hx := x.isLt
      have hy := y.isLt
      have hxs := ih (if (x.toNat : Int) - y.toNat - w < 0 then 1 else 0) (by split <;> omega) ys (Nat.succ.inj h)
      have hp : (2 : Int) ^ (64 * (xs.length + 1)) = 2 ^ 64 * 2 ^ (64 * xs.length) := by
        exact_mod_cast two_pow_limbs_succ xs.length
      simp only [subLimbsFrom, limbsVal, List.length_cons, hp, mul_left_comm _ ((2 : Int) ^ 64),
        BitVec.toNat_ofNat]
      push_cast
      by_cases hd : (x.toNat : Int) - y.toNat - w < 0 <;> simp only [hd, if_true, if_false] at hxs ⊢ <;> omega

theorem subLimbs_length {a b : List Word} (h : a.length = b.length) : (subLimbs a b).1.length = a.length :=
  subLimbsFrom_length 0 a b h

/-- The law of rule R90. -/
theorem subLimbs_exact {a b : List Word} (h : a.length = b.length) :
    (limbsVal (subLimbs a b).1 : Int) - (subLimbs a b).2 * 2 ^ (64 * a.length) = (limbsVal a : Int) - limbsVal b := by
  simpa [subLimbs] using subLimbsFrom_exact 0 (by omega) a b h

/-! ### The field operations on 256-bit values -/

/-- Four-limb addition: a sum below `2 ^ 256` and a carry (rule R88). -/
theorem addLimbs_four {a b : List Word} (ha : a.length = 4) (hb : b.length = 4) :
    limbsVal (addLimbs a b).1 < 2 ^ 256 ∧
    limbsVal (addLimbs a b).1 + (addLimbs a b).2 * 2 ^ 256 = limbsVal a + limbsVal b := by
  have hl := addLimbs_length (ha.trans hb.symm)
  have he := addLimbs_exact (ha.trans hb.symm)
  have hlt := limbsVal_lt (addLimbs a b).1
  rw [hl, ha] at hlt
  rw [ha] at he
  exact ⟨hlt, he⟩

/-- Four-limb subtraction: a difference below `2 ^ 256` and a borrow (rule R90). -/
theorem subLimbs_four {a b : List Word} (ha : a.length = 4) (hb : b.length = 4) :
    (subLimbs a b).1.length = 4 ∧ limbsVal (subLimbs a b).1 < 2 ^ 256 ∧
    limbsVal (subLimbs a b).1 + limbsVal b = limbsVal a + (subLimbs a b).2 * 2 ^ 256 := by
  have hl := (subLimbs_length (ha.trans hb.symm)).trans ha
  have he := subLimbs_exact (ha.trans hb.symm)
  have hlt := limbsVal_lt (subLimbs a b).1
  rw [hl] at hlt
  rw [ha] at he
  exact ⟨hl, hlt, by omega⟩

theorem limbsVal_limbs_four {v : Nat} (h : v < 2 ^ 256) : limbsVal (limbs 4 v) = v :=
  limbsVal_limbs_of_lt h

/-- Rule R99 as a case split: one subtraction of `P` where the sum reaches it. -/
theorem fadd_eq {P a b : Nat} (hP : P < 2 ^ 256) (ha : a < P) (hb : b < P) :
    fadd P a b = if a + b < P then a + b else a + b - P := by
  obtain ⟨hs, hsum⟩ := addLimbs_four (limbs_length 4 a) (limbs_length 4 b)
  rw [limbsVal_limbs_four (ha.trans hP), limbsVal_limbs_four (hb.trans hP)] at hsum
  obtain ⟨-, hd, hdiff⟩ := subLimbs_four (a := (addLimbs (limbs 4 a) (limbs 4 b)).1)
    ((addLimbs_length (by simp)).trans (limbs_length 4 a)) (limbs_length 4 P)
  rw [limbsVal_limbs_four hP] at hdiff
  simp only [fadd]
  split <;> split <;> omega

/-- Rule R100 as a case split: `P` is added where the difference is negative. -/
theorem fsub_eq {P a b : Nat} (hP : P < 2 ^ 256) (ha : a < P) (hb : b < P) :
    fsub P a b = if b ≤ a then a - b else a + P - b := by
  obtain ⟨hl, hd, hdiff⟩ := subLimbs_four (limbs_length 4 a) (limbs_length 4 b)
  rw [limbsVal_limbs_four (ha.trans hP), limbsVal_limbs_four (hb.trans hP)] at hdiff
  obtain ⟨hs, hsum⟩ := addLimbs_four hl (limbs_length 4 P)
  rw [limbsVal_limbs_four hP] at hsum
  simp only [fsub]
  split <;> split <;> omega

/-- Rule R101: zero is its own negative. -/
theorem fneg_eq {P a : Nat} (hP : P < 2 ^ 256) (ha : a < P) :
    fneg P a = if a = 0 then 0 else P - a := by
  obtain ⟨-, hd, hdiff⟩ := subLimbs_four (limbs_length 4 P) (limbs_length 4 a)
  rw [limbsVal_limbs_four (ha.trans hP), limbsVal_limbs_four hP] at hdiff
  unfold fneg
  split <;> omega

/-! ### The reducer (rules R107 to R109) -/

/-- The reference loop from step `k` on, of a value that `2 ^ (k + 1) * P` bounds, is the remainder. -/
theorem reduceFrom_eq_mod (P k r : Nat) (h : r < 2 ^ (k + 1) * P) : reduceFrom P k r = r % P := by
  induction k generalizing r with
  | zero =>
    rw [reduceFrom, pow_zero, one_mul]
    split
    next hle => rw [Nat.mod_eq_sub_mod hle, Nat.mod_eq_of_lt (by omega)]
    next hlt => rw [Nat.mod_eq_of_lt (by omega)]
  | succ k ih =>
    have hp : 2 ^ (k + 1 + 1) * P = 2 * (2 ^ (k + 1) * P) := by ring
    rw [reduceFrom]
    split
    next hle => rw [ih _ (by omega), mul_comm, Nat.sub_mul_mod (by rwa [mul_comm])]
    next hlt => exact ih _ (by omega)

/-- The loop starts high enough: `2 ^ 512` does not exceed the first multiple's double (rule R108). -/
theorem two_pow_512_le {P : Nat} (hpos : 0 < P) (hP : P < 2 ^ 256) : 2 ^ 512 ≤ 2 ^ (512 - bitlen P + 1) * P := by
  have hlog : P.log2 < 256 := (Nat.log2_lt hpos.ne').mpr hP
  calc 2 ^ 512 = 2 ^ (512 - bitlen P + 1) * 2 ^ P.log2 := by
        rw [← Nat.pow_add, bitlen, if_neg hpos.ne']
        congr 1
        omega
    _ ≤ 2 ^ (512 - bitlen P + 1) * P := Nat.mul_le_mul_left _ (Nat.log2_self_le hpos.ne')

/-- Rules R107 and R108. -/
theorem reduceP_eq_mod {P x : Nat} (hpos : 0 < P) (hP : P < 2 ^ 256) (hx : x < 2 ^ 512) : reduceP P x = x % P :=
  reduceFrom_eq_mod P _ x (hx.trans_le (two_pow_512_le hpos hP))

/-- FLOAD's value (rule R112). -/
theorem fload_eq_mod {P a : Nat} (hpos : 0 < P) (hP : P < 2 ^ 256) (ha : a < 2 ^ 256) : fload P a = a % P :=
  reduceP_eq_mod hpos hP (ha.trans (pow_lt_pow_right₀ Nat.one_lt_two (by decide)))

/-! ### The length of the wide product (rule R93) -/

theorem mulRound_length (x : Word) (carry : Nat) (b w : List Word) : (mulRound x carry b w).length = w.length := by
  induction w generalizing b carry with
  | nil => cases b <;> rfl
  | cons w0 ws ih =>
    cases b with
    | nil => rfl
    | cons y ys => exact congrArg (· + 1) (ih _ ys)

theorem mulRounds_length (b a w : List Word) : (mulRounds b a w).length = w.length := by
  induction a generalizing w with
  | nil => rfl
  | cons x xs ih =>
    have hround := mulRound_length x 0 b w
    rw [mulRounds]
    split
    next h => rw [← hround, h]
    next w0 ws h => rw [List.length_cons, ih, ← hround, h, List.length_cons]

theorem mulLimbs_length (a b : List Word) : (mulLimbs a b).length = a.length + b.length := by
  rw [mulLimbs, mulRounds_length, List.length_replicate]

/-- FMUL's reducer has an eight-limb value to reduce, so its result is canonical (rule R110). -/
theorem fmul_lt {P : Nat} (hpos : 0 < P) (hP : P < 2 ^ 256) (a b : Nat) : fmul P a b < P := by
  have hx := limbsVal_lt (mulLimbs (limbs 4 a) (limbs 4 b))
  rw [mulLimbs_length, limbs_length, limbs_length, show 64 * (4 + 4) = 512 from rfl] at hx
  rw [fmul, reduceP_eq_mod hpos hP hx]
  exact Nat.mod_lt _ hpos

/-! ### The coefficients of the extended Euclidean loop (rules R117 to R121) -/

/-- What the loop keeps on `(old_r, r)` and `(old_t, t)`: the remainders decrease, the coefficients have opposite signs,
and the remainders weighted with their sizes make up `P`, which bounds them. -/
structure CoeffInv (P oldR r oldT t : Int) : Prop where
  r_nonneg : 0 ≤ r
  r_lt : r < oldR
  weighted : (oldT ≤ 0 ∧ 0 ≤ t ∧ t * oldR - oldT * r = P) ∨ (0 ≤ oldT ∧ t ≤ 0 ∧ oldT * r - t * oldR = P)
  oldT_lt : |oldT| < P

theorem CoeffInv.start {P a : Nat} (ha : a < P) : CoeffInv P P a 0 1 where
  r_nonneg := by omega
  r_lt := by omega
  weighted := .inl (by simp)
  oldT_lt := by simp; omega

/-- While the remainder is not 0 the next coefficient is below `P`: `old_r` is then at least 2. -/
theorem CoeffInv.t_lt {P oldR r oldT t : Int} (h : CoeffInv P oldR r oldT t) (hr : r ≠ 0) : |t| < P := by
  obtain ⟨hr0, hlt, hw, hP⟩ := h
  have hpos := (abs_nonneg oldT).trans_lt hP
  have hold : 2 ≤ oldR := by omega
  rcases hw with ⟨ho, ht, hw⟩ | ⟨ho, ht, hw⟩
  · have h2t := mul_le_mul_of_nonneg_left hold ht
    have hor := mul_nonpos_of_nonpos_of_nonneg ho hr0
    rw [abs_of_nonneg ht]
    linarith
  · have h2t := mul_le_mul_of_nonpos_left hold ht
    have hor := mul_nonneg ho hr0
    rw [abs_of_nonpos ht]
    linarith

theorem CoeffInv.next {P oldR r oldT t : Int} (h : CoeffInv P oldR r oldT t) (hr : r ≠ 0) :
    CoeffInv P r (oldR - oldR / r * r) t (oldT - oldR / r * t) where
  r_nonneg := by rw [mul_comm, ← Int.emod_def]; exact Int.emod_nonneg _ hr
  r_lt := by
    have := h.r_nonneg
    rw [mul_comm, ← Int.emod_def]; exact Int.emod_lt_of_pos _ (by omega)
  weighted := by
    have hq : 0 ≤ oldR / r := Int.ediv_nonneg (h.r_nonneg.trans h.r_lt.le) h.r_nonneg
    rcases h.weighted with ⟨ho, ht, hw⟩ | ⟨ho, ht, hw⟩
    · exact .inr ⟨ht, by nlinarith, by linarith⟩
    · exact .inl ⟨ht, by nlinarith, by linarith⟩
  oldT_lt := h.t_lt hr

/-- Wherever the loop ends its coefficient lies strictly between `-P` and `P` (rule R121). -/
theorem euclidLoop_abs_lt {P : Int} (fuel : Nat) {oldR r oldT t : Int} (h : CoeffInv P oldR r oldT t) :
    |euclidLoop fuel oldR r oldT t| < P := by
  induction fuel generalizing oldR r oldT t with
  | zero => exact h.oldT_lt
  | succ fuel ih =>
    rw [euclidLoop]
    split
    next => exact h.oldT_lt
    next hr => exact ih (h.next hr)

theorem finv_lt {P a : Nat} (ha : a < P) : finv P a < P := by
  have h := abs_lt.mp (euclidLoop_abs_lt a (CoeffInv.start ha))
  unfold finv normalizeCoeff
  split <;> omega

end Sys2Proof.Machine

namespace Sys2Proof.Machine

open Sys2Proof

/-! ### The command function and its values (rules R80, R84) -/

/-- The command function of rule R80, `exec(op, a, b)`, at modulus `P`. -/
def commandResult (P : Nat) (i : Instr) (a b : Nat) : Result :=
  match i with
  | .fload => floadResult P a
  | .fadd => faddResult P a b
  | .fsub => fsubResult P a b
  | .fmul => fmulResult P a b
  | .fneg => fnegResult P a
  | .finv => finvResult P a
  | .feq => feqResult P a b

/-- A command completes with the command function's result on the latched operands (rules R80, R81). -/
theorem exec_eq_commandResult (i : Instr) (s : State) :
    exec i s = .next (complete (commandResult Config.P i s.la.toNat s.lb.toNat) s) := by
  cases i <;> rfl

theorem checkA_eq_val {P a v : Nat} {k : Result} (h : checkA P a k = .val v) : a < P ∧ k = .val v := by
  obtain ⟨-, hk⟩ | ⟨ha, hk⟩ := checkA_cases P a k
  · rw [hk] at h; cases h
  · exact ⟨ha, hk ▸ h⟩

theorem checkAB_eq_val {P a b v : Nat} {k : Result} (h : checkAB P a b k = .val v) :
    a < P ∧ b < P ∧ k = .val v := by
  obtain ⟨-, hk⟩ | ⟨-, -, hk⟩ | ⟨ha, hb, hk⟩ := checkAB_cases P a b k
  · rw [hk] at h; cases h
  · rw [hk] at h; cases h
  · exact ⟨ha, hb, hk ▸ h⟩

/-- Rule R84: each value the command function returns is canonical. -/
theorem commandResult_val_lt {P a b v : Nat} {i : Instr} (hpos : 0 < P) (hP : P < 2 ^ 256) (ha : a < 2 ^ 256)
    (h : commandResult P i a b = .val v) : v < P := by
  cases i with
  | fload =>
    obtain rfl := Result.val.inj h
    rw [fload_eq_mod hpos hP ha]
    exact Nat.mod_lt _ hpos
  | fadd =>
    obtain ⟨ha, hb, hv⟩ := checkAB_eq_val h
    obtain rfl := Result.val.inj hv
    rw [fadd_eq hP ha hb]
    split <;> omega
  | fsub =>
    obtain ⟨ha, hb, hv⟩ := checkAB_eq_val h
    obtain rfl := Result.val.inj hv
    rw [fsub_eq hP ha hb]
    split <;> omega
  | fmul =>
    obtain ⟨-, -, hv⟩ := checkAB_eq_val h
    obtain rfl := Result.val.inj hv
    exact fmul_lt hpos hP a b
  | fneg =>
    obtain ⟨ha, hv⟩ := checkA_eq_val h
    obtain rfl := Result.val.inj hv
    rw [fneg_eq hP ha]
    split <;> omega
  | finv =>
    obtain ⟨ha, hv⟩ := checkA_eq_val h
    split at hv
    · cases hv
    · obtain rfl := Result.val.inj hv
      exact finv_lt ha
  | feq =>
    obtain ⟨-, -, hv⟩ := checkAB_eq_val h
    cases hv

/-! ### The invariant of rule R40 -/

/-- The invariant speaks of R, `BUSY`, `ERR`, `LASTOP` and `LOP` only. -/
theorem BlockInv.congr {s t : State} (h : BlockInv s) (hr : t.r = s.r) (hbusy : t.busy = s.busy) (herr : t.err = s.err)
    (hlast : t.lastop = s.lastop) (hlop : t.lop = s.lop) : BlockInv t where
  err_le := herr ▸ h.err_le
  lop_legal hb := hlop ▸ h.lop_legal (hbusy ▸ hb)
  err_none hb := herr ▸ h.err_none (hbusy ▸ hb)
  lastop_eq hb := by rw [hlast, hlop, h.lastop_eq (hbusy ▸ hb)]
  r_canonical := hr ▸ h.r_canonical

/-- In an idle block only `ERR` and R have something to meet. -/
theorem BlockInv.of_idle {s : State} (hbusy : s.busy = false) (herr : s.err.toNat ≤ 4)
    (hr : valLimbs4 s.r < Config.P) : BlockInv s where
  err_le := herr
  lop_legal hb := by rw [hbusy] at hb; cases hb
  err_none hb := by rw [hbusy] at hb; cases hb
  lastop_eq hb := by rw [hbusy] at hb; cases hb
  r_canonical := hr

theorem errorCode_toNat_le (c : ErrorCode) : (errorCode c).toNat ≤ 4 := by
  cases c <;> decide

theorem opcodeOf_legal (i : Instr) : 1 ≤ (opcodeOf i).toNat ∧ (opcodeOf i).toNat ≤ 7 :=
  (decodeOp_isSome _).mp (by rw [decodeOp_opcodeOf]; rfl)

/-- A word that decodes has its command's opcode in `OP` (rules R60, R66). -/
theorem opField_of_decodeWord {w : Word} {i : Instr} (h : decodeWord w = .ok i) : opField w = opcodeOf i := by
  unfold decodeWord at h
  split at h
  · cases h
  · split at h
    next j hj =>
      cases h
      exact decodeOp_some hj
    next => cases h

theorem reset_inv : BlockInv State.reset :=
  .of_idle rfl (errorCode_toNat_le .none) Config.P_pos

theorem resetBlock_inv (s : State) : BlockInv (resetBlock s) :=
  .of_idle rfl (errorCode_toNat_le .none) Config.P_pos

theorem setAgenda_inv {s : State} (h : BlockInv s) (ts : List Turn) : BlockInv (setAgenda ts s) :=
  h.congr rfl rfl rfl rfl rfl

/-- An accepted word starts a command with its opcode, `ERR = NONE` and `LASTOP`, or leaves the block idle. -/
theorem accept_inv {s : State} (h : BlockInv s) (hbusy : s.busy = false) (w : Word) : BlockInv (accept w s) := by
  obtain ⟨i, hw, ha⟩ | ⟨e, -, ha⟩ := accept_cases w s <;> rw [ha]
  · exact
      { err_le := errorCode_toNat_le .none
        lop_legal := fun _ => opcodeOf_legal i
        err_none := fun _ => rfl
        lastop_eq := fun _ => opField_of_decodeWord hw
        r_canonical := h.r_canonical }
  · exact .of_idle hbusy (errorCode_toNat_le _) h.r_canonical

theorem cmdWrite_inv {s : State} (h : BlockInv s) (w : Word) : BlockInv (cmdWrite w s) := by
  obtain ⟨-, hc⟩ | ⟨hbusy, hc⟩ := cmdWrite_cases w s <;> rw [hc]
  · exact h.congr rfl rfl rfl rfl rfl
  · exact accept_inv h hbusy w

theorem busWrite_inv {s : State} (h : BlockInv s) (off : BitVec 8) (d : Word) : BlockInv (busWrite off d s) := by
  obtain ⟨i, -, hw⟩ | ⟨i, -, hw⟩ | ⟨-, hw⟩ | hw := busWrite_cases off d s <;> rw [hw]
  · exact h.congr rfl rfl rfl rfl rfl
  · exact h.congr rfl rfl rfl rfl rfl
  · exact cmdWrite_inv h d
  · exact h

theorem busAccess_inv {s : State} (h : BlockInv s) (x : Transaction) : BlockInv (busAccess x s) := by
  obtain ⟨-, ha⟩ | ⟨-, -, ha⟩ | ⟨-, -, ha⟩ := busAccess_cases x s <;> rw [ha]
  · exact h.congr rfl rfl rfl rfl rfl
  · exact h.congr rfl rfl rfl rfl rfl
  · exact (busWrite_inv h x.off x.data).congr rfl rfl rfl rfl rfl

/-- A completion leaves the block idle, with a canonical value in R or one of the five codes in `ERR`. -/
theorem exec_inv {i : Instr} {s t : State} (h : BlockInv s) (hs : exec i s = .next t) : BlockInv t := by
  rw [exec_eq_commandResult] at hs
  cases hs
  obtain ⟨v, hv, hc⟩ | ⟨e, -, hc⟩ | ⟨c, -, hc⟩ :=
    complete_cases (commandResult Config.P i s.la.toNat s.lb.toNat) s <;> rw [hc]
  · have hlt := commandResult_val_lt Config.P_pos Config.P_lt s.la.isLt hv
    exact .of_idle rfl h.err_le ((valLimbs4_ofNatLimbs4_of_lt (hlt.trans Config.P_lt)).trans_lt hlt)
  · exact .of_idle rfl h.err_le h.r_canonical
  · exact .of_idle rfl (errorCode_toNat_le c) h.r_canonical

theorem completionStep_inv {s t : State} (h : BlockInv s) (hs : completionStep s = .next t) : BlockInv t := by
  obtain ⟨-, rfl⟩ | ⟨i, -, -, hs⟩ := completionStep_next hs
  · exact h
  · exact exec_inv h hs

/-- Every step keeps the invariant (rules R39, R40). -/
theorem step_inv {s t : State} (h : BlockInv s) (hs : step s = .next t) : BlockInv t := by
  obtain ⟨-, hc⟩ | ⟨x, ts, -, rfl⟩ | ⟨ts, -, rfl⟩ := step_next hs
  · exact completionStep_inv (setAgenda_inv h _) hc
  · exact busAccess_inv (setAgenda_inv h ts) x
  · exact resetBlock_inv _

/-! ### Runs -/

/-- What every step keeps holds after every run. -/
theorem run_induction {Inv : State → Prop} (hstep : ∀ s t, Inv s → step s = .next t → Inv t) (n : Nat)
    {s t : State} (h : Inv s) (hrun : Host.Core.run core n s = .next t) : Inv t := by
  induction n generalizing s with
  | zero =>
    rw [run_zero] at hrun
    cases hrun
    exact h
  | succ n ih =>
    rw [run_succ] at hrun
    cases hs : step s with
    | next u => exact ih (hstep s u h hs) (by simpa [hs] using hrun)
    | fault x => simp [hs] at hrun
    | refused x => simp [hs] at hrun

/-- Settles O49: the invariant holds at reset, whatever turns wait, and every step keeps it. -/
theorem reachableStatesAreLegal : Obligations.ReachableStatesAreLegal := by
  intro ts n t hrun
  have h : BlockInv t := run_induction (fun _ _ => step_inv) n (setAgenda_inv reset_inv ts) hrun
  exact ⟨h.r_canonical, h.err_le, h.lop_legal⟩

end Sys2Proof.Machine

namespace Sys2Proof.Machine

open Sys2Proof

/-! ### The words that decode (rules R60 to R66) -/

/-- A word decodes when `RSV` is zero and the opcode map knows `OP` (rule R64). -/
theorem decodeWord_eq_ok_iff_fields {w : Word} {i : Instr} :
    decodeWord w = .ok i ↔ rsvField w = 0 ∧ decodeOp (opField w) = some i := by
  unfold decodeWord
  split
  next hrsv => exact ⟨nofun, fun h => absurd h.1 hrsv⟩
  next hrsv =>
    rw [and_iff_right (not_not.mp hrsv)]
    cases decodeOp (opField w) <;> simp

/-- `RSV` and `OP` make up the whole word (rule R60). -/
theorem eq_of_fields_eq {w v : Word} (hrsv : rsvField w = rsvField v) (hop : opField w = opField v) : w = v := by
  apply BitVec.eq_of_toNat_eq
  have hdiv := congrArg BitVec.toNat hrsv
  have hmod := congrArg BitVec.toNat hop
  simp only [rsvField_toNat] at hdiv
  simp only [opField_toNat] at hmod
  omega

theorem rsvField_encodeWord (i : Instr) : rsvField (encodeWord i) = 0 := by
  cases i <;> rfl

/-- A command is decoded from its own word and from no other (rules R61, R66). -/
theorem decodeWord_eq_ok_iff {w : Word} {i : Instr} : decodeWord w = .ok i ↔ w = encodeWord i := by
  rw [decodeWord_eq_ok_iff_fields]
  constructor
  · rintro ⟨hrsv, hop⟩
    exact eq_of_fields_eq (hrsv.trans (rsvField_encodeWord i).symm)
      ((decodeOp_some hop).trans (opField_encodeWord i).symm)
  · rintro rfl
    exact ⟨rsvField_encodeWord i, by rw [opField_encodeWord, decodeOp_opcodeOf]⟩

/-- The legal words, by their fields (rule R64). -/
theorem exists_decodeWord_eq_ok_iff (w : Word) :
    (∃ i, decodeWord w = .ok i) ↔ rsvField w = 0 ∧ 1 ≤ (opField w).toNat ∧ (opField w).toNat ≤ 7 := by
  simp only [decodeWord_eq_ok_iff_fields, exists_and_left, ← Option.isSome_iff_exists, decodeOp_isSome]

/-- Settles O2: a command decodes from its encoding alone, and the seven words are the encodings. -/
theorem decodeAcceptsExactlySevenWords : Obligations.DecodeAcceptsExactlySevenWords := fun w =>
  ⟨decodeWord_eq_ok_iff, decodeWord_eq_ok_iff, decodeWord_eq_ok_iff, decodeWord_eq_ok_iff, decodeWord_eq_ok_iff,
    decodeWord_eq_ok_iff, decodeWord_eq_ok_iff, exists_decodeWord_eq_ok_iff w⟩

end Sys2Proof.Machine

namespace Sys2Proof.Machine

open Sys2Proof

/-! ### What a completion leaves in R (rule R84) -/

/-- A value of the command function is written to R whole (rule R81); a flag or an error leaves R. -/
theorem exec_r {i : Instr} {s t : State} (h : exec i s = .next t) :
    t.r = s.r ∨ ∃ v, commandResult Config.P i s.la.toNat s.lb.toNat = .val v ∧ t.r = ofNatLimbs4 v := by
  rw [exec_eq_commandResult] at h
  cases h
  obtain ⟨v, hv, hc⟩ | ⟨e, -, hc⟩ | ⟨c, -, hc⟩ :=
    complete_cases (commandResult Config.P i s.la.toNat s.lb.toNat) s <;> rw [hc]
  · exact .inr ⟨v, hv, rfl⟩
  · exact .inl rfl
  · exact .inl rfl

/-- `commandResult_val_lt` at the build's modulus, for operands as the latches hold them. -/
theorem commandResult_latched_lt (i : Instr) {a b : U256} {v : Nat}
    (h : commandResult Config.P i a.toNat b.toNat = .val v) : v < Config.P :=
  commandResult_val_lt Config.P_pos Config.P_lt a.isLt h

/-- Settles O32: R is left or gets a value of the command function, and each of those is below `P`. -/
theorem resultsAreCanonical : Obligations.ResultsAreCanonical := by
  refine ⟨fun s t i hs => ?_, fun a b v hv => ?_⟩
  · obtain hr | ⟨v, hv, hr⟩ := exec_r hs
    · exact .inl hr
    · have hlt := commandResult_latched_lt i hv
      rw [hr, valLimbs4_ofNatLimbs4_of_lt (hlt.trans Config.P_lt)]
      exact .inr hlt
  · obtain hv | hv | hv | hv | hv | hv := hv
    · exact commandResult_latched_lt .fload (b := b) hv
    · exact commandResult_latched_lt .fadd hv
    · exact commandResult_latched_lt .fsub hv
    · exact commandResult_latched_lt .fmul hv
    · exact commandResult_latched_lt .fneg (b := b) hv
    · exact commandResult_latched_lt .finv (b := b) hv

end Sys2Proof.Machine

namespace Sys2Proof.Machine

open Sys2Proof

/-! ### The laws of the limb primitives, for arrays of any length (rules R88, R90, R92) -/

theorem limbsVal_addLimbs_lt {a b : List Word} (h : a.length = b.length) :
    limbsVal (addLimbs a b).1 < 2 ^ (64 * a.length) :=
  addLimbs_length h ▸ limbsVal_lt (addLimbs a b).1

theorem limbsVal_subLimbs_lt {a b : List Word} (h : a.length = b.length) :
    limbsVal (subLimbs a b).1 < 2 ^ (64 * a.length) :=
  subLimbs_length h ▸ limbsVal_lt (subLimbs a b).1

/-- The carry of rule R88 is a bit: two numbers below `2^(64N)` have a sum below twice that. -/
theorem addLimbs_carry_lt_two {a b : List Word} (h : a.length = b.length) : (addLimbs a b).2 < 2 := by
  have ha := limbsVal_lt a
  have hb := h ▸ limbsVal_lt b
  have hsum := addLimbs_exact h
  exact Nat.lt_of_mul_lt_mul_right (a := 2 ^ (64 * a.length)) (by omega)

/-- The borrow of rule R90 is a bit: the difference of two numbers below `2^(64N)` is above `-2^(64N)`. -/
theorem subLimbs_borrow_lt_two {a b : List Word} (h : a.length = b.length) : (subLimbs a b).2 < 2 := by
  have hb := h ▸ limbsVal_lt b
  have hr := limbsVal_subLimbs_lt h
  have hdiff := subLimbs_exact h
  exact Nat.lt_of_mul_lt_mul_right (a := 2 ^ (64 * a.length)) (by zify at hb hr ⊢; omega)

/-- The borrow of rule R90 is the comparison: with the result below `2^(64N)`, it is the sign of `val(a) - val(b)`. -/
theorem subLimbs_borrow_eq {a b : List Word} (h : a.length = b.length) :
    (subLimbs a b).2 = if limbsVal a < limbsVal b then 1 else 0 := by
  have hr := limbsVal_subLimbs_lt h
  have hdiff := subLimbs_exact h
  have hbit := subLimbs_borrow_lt_two h
  zify at hr
  obtain hw | hw : (subLimbs a b).2 = 0 ∨ (subLimbs a b).2 = 1 := by omega
  · rw [hw] at hdiff ⊢
    rw [if_neg (by omega)]
  · rw [hw] at hdiff ⊢
    rw [if_pos (by omega)]

/-- The product of two words fits two words, with room in the upper one (rule R91). -/
theorem mul_toNat_div_le (x y : Word) : x.toNat * y.toNat / 2 ^ 64 ≤ 2 ^ 64 - 2 := by
  have hle : x.toNat * y.toNat ≤ (2 ^ 64 - 1) * (2 ^ 64 - 1) :=
    Nat.mul_le_mul (Nat.le_pred_of_lt x.isLt) (Nat.le_pred_of_lt y.isLt)
  omega

theorem mul64_hi_toNat (x y : Word) : (mul64 x y).1.toNat = x.toNat * y.toNat / 2 ^ 64 := by
  have hhi := mul_toNat_div_le x y
  rw [mul64, BitVec.toNat_ofNat, Nat.mod_eq_of_lt (by omega)]

theorem mul64_lo_toNat (x y : Word) : (mul64 x y).2.toNat = x.toNat * y.toNat % 2 ^ 64 := by
  rw [mul64, BitVec.toNat_ofNat, Nat.mod_mod]

/-- Settles O34: the sum loses nothing, so the bounds of its parts follow from those of the operands. -/
theorem addLimbsIsExact : Obligations.AddLimbsIsExact := fun _ _ h =>
  ⟨addLimbs_length h, addLimbs_exact h,
    Nat.le_one_iff_eq_zero_or_eq_one.mp (Nat.le_of_lt_succ (addLimbs_carry_lt_two h)), limbsVal_addLimbs_lt h⟩

/-- Settles O35: the difference loses nothing, so the borrow is its sign. -/
theorem subLimbsIsExact : Obligations.SubLimbsIsExact := fun _ _ h =>
  ⟨subLimbs_length h, subLimbs_exact h, subLimbs_borrow_eq h⟩

/-- Settles O36: `hi` and `lo` are the quotient and the remainder of the product by `2^64`. -/
theorem limbProductIsExact : Obligations.LimbProductIsExact := by
  intro x y
  rw [mul64_hi_toNat, mul64_lo_toNat]
  exact ⟨Nat.div_add_mod' _ _, mul_toNat_div_le x y⟩

end Sys2Proof.Machine

namespace Sys2Proof.Machine

open Sys2Proof

/-! ### FADD, FSUB and FNEG as arithmetic mod `P`, and their identities (rules R99, R100, R102, R104, R105) -/

theorem fneg_zero (P : Nat) : fneg P 0 = 0 := if_pos rfl

section
variable {P a b c : Nat} (hP : P < 2 ^ 256) (ha : a < P)
include hP ha

theorem fadd_lt (hb : b < P) : fadd P a b < P := by
  rw [fadd_eq hP ha hb]
  split <;> omega

theorem fsub_lt (hb : b < P) : fsub P a b < P := by
  rw [fsub_eq hP ha hb]
  split <;> omega

theorem fneg_lt : fneg P a < P := by
  rw [fneg_eq hP ha]
  split <;> omega

theorem fadd_eq_mod (hb : b < P) : fadd P a b = (a + b) % P := by
  rw [fadd_eq hP ha hb]
  split
  case isTrue hsum => rw [Nat.mod_eq_of_lt hsum]
  case isFalse hsum => rw [Nat.mod_eq_sub_mod (by omega), Nat.mod_eq_of_lt (by omega)]

theorem fsub_eq_emod (hb : b < P) : fsub P a b = (((a : Int) - b) % P).toNat := by
  rw [fsub_eq hP ha hb]
  split
  case isTrue hle => rw [Int.emod_eq_of_lt (by omega) (by omega)]; omega
  case isFalse hlt => rw [← Int.add_emod_right, Int.emod_eq_of_lt (by omega) (by omega)]; omega

theorem fneg_eq_mod : fneg P a = (P - a) % P := by
  rw [fneg_eq hP ha]
  split
  case isTrue hzero => rw [hzero, Nat.sub_zero, Nat.mod_self]
  case isFalse hpos => rw [Nat.mod_eq_of_lt (by omega)]

theorem fsub_self : fsub P a a = 0 := by
  rw [fsub_eq hP ha ha, if_pos le_rfl, Nat.sub_self]

theorem fneg_eq_fsub_zero : fneg P a = fsub P 0 a := by
  obtain rfl | hpos := Nat.eq_zero_or_pos a
  · rw [fneg_zero, fsub_self hP ha]
  · rw [fneg_eq hP ha, if_neg hpos.ne', fsub_eq hP (by omega) ha, if_neg (by omega), Nat.zero_add]

theorem fadd_zero : fadd P a 0 = a := by
  rw [fadd_eq_mod hP ha (by omega), Nat.add_zero, Nat.mod_eq_of_lt ha]

theorem fadd_comm (hb : b < P) : fadd P a b = fadd P b a := by
  rw [fadd_eq_mod hP ha hb, fadd_eq_mod hP hb ha, Nat.add_comm]

theorem fadd_assoc (hb : b < P) (hc : c < P) : fadd P (fadd P a b) c = fadd P a (fadd P b c) := by
  rw [fadd_eq_mod hP (fadd_lt hP ha hb) hc, fadd_eq_mod hP ha (fadd_lt hP hb hc), fadd_eq_mod hP ha hb,
    fadd_eq_mod hP hb hc, Nat.mod_add_mod, Nat.add_mod_mod, Nat.add_assoc]

theorem fsub_eq_fadd_fneg (hb : b < P) : fsub P a b = fadd P a (fneg P b) := by
  obtain rfl | hpos := Nat.eq_zero_or_pos b
  · rw [fneg_zero, fadd_zero hP ha, fsub_eq hP ha hb, if_pos (Nat.zero_le a), Nat.sub_zero]
  · rw [fsub_eq hP ha hb, fadd_eq hP ha (fneg_lt hP hb), fneg_eq hP hb, if_neg hpos.ne']
    split <;> split <;> omega

theorem fadd_fneg : fadd P a (fneg P a) = 0 := by
  rw [← fsub_eq_fadd_fneg hP ha ha, fsub_self hP ha]

theorem fneg_fneg : fneg P (fneg P a) = a := by
  obtain rfl | hpos := Nat.eq_zero_or_pos a
  · rw [fneg_zero, fneg_zero]
  · rw [fneg_eq hP (fneg_lt hP ha), fneg_eq hP ha, if_neg hpos.ne', if_neg (by omega)]
    omega

end

/-- FADD answers the raw limb sum, or that sum with `P` taken off once (rule R102). -/
theorem fadd_eq_sum_or_corrected (P a b : Nat) :
    fadd P a b = limbsVal (addLimbs (limbs 4 a) (limbs 4 b)).1 ∨
    fadd P a b = limbsVal (subLimbs (addLimbs (limbs 4 a) (limbs 4 b)).1 (limbs 4 P)).1 :=
  (ite_eq_or_eq _ _ _).symm

/-- Settles O39: each operation is its case split at one correction, which on canonical operands is reduction mod `P`. -/
theorem addSubNegLaws : Obligations.AddSubNegLaws := fun P a b hP ha hb =>
  ⟨fadd_eq_mod hP ha hb, fadd_lt hP ha hb, fadd_eq_sum_or_corrected P a b, fsub_eq_emod hP ha hb,
    fneg_eq_mod hP ha, fneg_eq_fsub_zero hP ha, fneg_lt hP ha, by omega⟩

/-- Settles O40: the operations are closed on canonical values, so the identities are those of arithmetic mod `P`. -/
theorem addSubIdentities : Obligations.AddSubIdentities := fun P _ _ _ hP ha hb hc =>
  ⟨fadd_lt hP ha hb, fsub_lt hP ha hb, fneg_lt hP ha, fadd_fneg hP ha, fadd_zero hP ha,
    fsub_eq_fadd_fneg hP ha hb, fadd_comm hP ha hb, fadd_assoc hP ha hb hc, fneg_fneg hP ha, fneg_zero P⟩

end Sys2Proof.Machine

namespace Sys2Proof.Machine

open Sys2Proof

/-! ### The wide product loses no carry (rules R93 to R95) -/

/-- A limb, a product of two and a carry fit two limbs, so the carry out of a position is again a limb (rule R94). -/
theorem mulRound_carry_lt {c : Nat} (x y w : Word) (hc : c < 2 ^ 64) :
    (w.toNat + x.toNat * y.toNat + c) / 2 ^ 64 < 2 ^ 64 := by
  have hxy : x.toNat * y.toNat ≤ (2 ^ 64 - 1) * (2 ^ 64 - 1) :=
    Nat.mul_le_mul (Nat.le_pred_of_lt x.isLt) (Nat.le_pred_of_lt y.isLt)
  have hw := w.isLt
  omega

/-- One position of the inner loop, with the product of the two limbs put together. -/
theorem mulRound_cons (x y w : Word) (c : Nat) (b ws : List Word) :
    mulRound x c (y :: b) (w :: ws) =
      BitVec.ofNat 64 ((w.toNat + x.toNat * y.toNat + c) % 2 ^ 64) ::
        mulRound x ((w.toNat + x.toNat * y.toNat + c) / 2 ^ 64) b ws := by
  simp only [mulRound, mul64_hi_toNat, mul64_lo_toNat, Nat.div_add_mod]

/-- A round does not reach the limbs after the one its last carry goes to. -/
theorem mulRound_append (x : Word) (c : Nat) (b w zs : List Word) (h : w.length = b.length + 1) :
    mulRound x c b (w ++ zs) = mulRound x c b w ++ zs := by
  induction b generalizing w c with
  | nil =>
    obtain ⟨w0, rfl⟩ := List.length_eq_one_iff.mp h
    rfl
  | cons y ys ih =>
    obtain _ | ⟨w0, ws⟩ := w
    · cases h
    · rw [List.cons_append, mulRound_cons, mulRound_cons, ih _ ws (Nat.succ.inj h), List.cons_append]

/-- One round adds `x * val(b)` and the carry in; the limb its last carry goes to is still zero. -/
theorem limbsVal_mulRound {c : Nat} (x : Word) (b u : List Word) (hc : c < 2 ^ 64) (h : u.length = b.length) :
    limbsVal (mulRound x c b (u ++ [0])) = limbsVal u + x.toNat * limbsVal b + c := by
  induction b generalizing u c with
  | nil =>
    obtain rfl := List.length_eq_zero_iff.mp h
    simpa [mulRound, limbsVal] using hc
  | cons y ys ih =>
    obtain _ | ⟨w, ws⟩ := u
    · cases h
    · have hys := ih ws (mulRound_carry_lt x y w hc) (Nat.succ.inj h)
      rw [List.cons_append, mulRound_cons, limbsVal, hys, limbsVal, limbsVal, BitVec.toNat_ofNat, Nat.mod_mod,
        Nat.mul_add x.toNat, Nat.mul_left_comm x.toNat]
      omega

theorem mulRounds_cons {x w0 : Word} {b w ws : List Word} (xs : List Word) (h : mulRound x 0 b w = w0 :: ws) :
    mulRounds b (x :: xs) w = w0 :: mulRounds b xs ws := by
  rw [mulRounds, h]

/-- The rounds left add `val(a) * val(b)`: above as many limbs of the accumulator as `b` has, a zero limb waits for each
round. -/
theorem limbsVal_mulRounds (b a u : List Word) (h : u.length = b.length) :
    limbsVal (mulRounds b a (u ++ List.replicate a.length 0)) = limbsVal u + limbsVal a * limbsVal b := by
  induction a generalizing u with
  | nil => simp [mulRounds, limbsVal]
  | cons x xs ih =>
    have hval := limbsVal_mulRound (c := 0) x b u (by decide) h
    have hacc : (u ++ [0]).length = b.length + 1 := by rw [List.length_append, h, List.length_singleton]
    have happ := mulRound_append x 0 b (u ++ [0]) (List.replicate xs.length 0) hacc
    have hlen := (mulRound_length x 0 b (u ++ [0])).trans hacc
    obtain ⟨w0, ws, hround⟩ := List.exists_cons_of_length_eq_add_one hlen
    rw [hround] at hval hlen
    rw [hround, List.cons_append] at happ
    rw [List.length_cons, List.replicate_succ, List.append_cons, mulRounds_cons xs happ, limbsVal,
      ih ws (Nat.succ.inj hlen)]
    rw [limbsVal] at hval ⊢
    linarith

/-- The law of rule R93. -/
theorem limbsVal_mulLimbs (a b : List Word) : limbsVal (mulLimbs a b) = limbsVal a * limbsVal b := by
  rw [mulLimbs, Nat.add_comm, List.replicate_add, limbsVal_mulRounds _ _ _ List.length_replicate,
    limbsVal_replicate_zero, Nat.zero_add]

/-! ### FMUL as multiplication mod `P`, and its identities (rules R110, R111) -/

section
variable {P a b c : Nat} (hP : P < 2 ^ 256) (ha : a < P)
include hP ha

/-- The law of rule R110. -/
theorem fmul_eq_mod (hb : b < P) : fmul P a b = a * b % P := by
  have hprod : a * b < 2 ^ 256 * 2 ^ 256 := Nat.mul_lt_mul'' (ha.trans hP) (hb.trans hP)
  rw [fmul, limbsVal_mulLimbs, limbsVal_limbs_four (ha.trans hP), limbsVal_limbs_four (hb.trans hP),
    reduceP_eq_mod (Nat.zero_lt_of_lt ha) hP (by rwa [show 512 = 256 + 256 from rfl, Nat.pow_add])]

theorem fmul_one (hone : 1 < P) : fmul P a 1 = a := by
  rw [fmul_eq_mod hP ha hone, Nat.mul_one, Nat.mod_eq_of_lt ha]

theorem fmul_zero : fmul P a 0 = 0 := by
  rw [fmul_eq_mod hP ha (Nat.zero_lt_of_lt ha), Nat.mul_zero, Nat.zero_mod]

theorem fmul_comm (hb : b < P) : fmul P a b = fmul P b a := by
  rw [fmul_eq_mod hP ha hb, fmul_eq_mod hP hb ha, Nat.mul_comm]

theorem fmul_lt_of_lt : fmul P a b < P := fmul_lt (Nat.zero_lt_of_lt ha) hP a b

theorem fmul_assoc (hb : b < P) (hc : c < P) : fmul P (fmul P a b) c = fmul P a (fmul P b c) := by
  rw [fmul_eq_mod hP (fmul_lt_of_lt hP ha) hc, fmul_eq_mod hP ha (fmul_lt_of_lt hP hb), fmul_eq_mod hP ha hb,
    fmul_eq_mod hP hb hc, Nat.mod_mul_mod, Nat.mul_mod_mod, Nat.mul_assoc]

theorem fmul_fadd (hb : b < P) (hc : c < P) : fmul P a (fadd P b c) = fadd P (fmul P a b) (fmul P a c) := by
  rw [fmul_eq_mod hP ha (fadd_lt hP hb hc), fadd_eq_mod hP hb hc,
    fadd_eq_mod hP (fmul_lt_of_lt hP ha) (fmul_lt_of_lt hP ha), fmul_eq_mod hP ha hb, fmul_eq_mod hP ha hc,
    Nat.mul_mod_mod, ← Nat.add_mod, Nat.mul_add]

end

/-- FLOAD leaves a canonical value as it is (rule R113). -/
theorem fload_of_lt {P v : Nat} (hP : P < 2 ^ 256) (hv : v < P) : fload P v = v := by
  rw [fload_eq_mod (Nat.zero_lt_of_lt hv) hP (hv.trans hP), Nat.mod_eq_of_lt hv]

theorem fload_lt {P x : Nat} (hpos : 0 < P) (hP : P < 2 ^ 256) (hx : x < 2 ^ 256) : fload P x < P := by
  rw [fload_eq_mod hpos hP hx]
  exact Nat.mod_lt _ hpos

/-- Settles O41: the wide product is exact and its reduction is a remainder, so the identities are those of integers mod
`P`; what FLOAD has reduced is canonical, and it leaves such a value alone. -/
theorem mulIdentities : Obligations.MulIdentities := fun _ _ _ _ hone hP ha hb hc =>
  ⟨fmul_one hP ha hone, fmul_zero hP ha, fmul_comm hP ha hb, fmul_assoc hP ha hb hc, fmul_fadd hP ha hb hc,
    fmul_lt_of_lt hP ha, fun _ hx => fload_of_lt hP (fload_lt (Nat.zero_lt_of_lt ha) hP hx)⟩

end Sys2Proof.Machine

namespace Sys2Proof.Machine

open Sys2Proof

/-! ### The extended Euclidean loop as an inverse mod `P` (rules R117 to R123) -/

/-- Where the loop ends, `old_r` is the greatest common divisor of the remainders. -/
theorem CoeffInv.gcd_zero {P oldR oldT t : Int} (h : CoeffInv P oldR 0 oldT t) : (Int.gcd oldR 0 : Int) = oldR := by
  rw [Int.gcd_zero_right, Int.natAbs_of_nonneg h.r_lt.le]

/-- A congruence of the coefficients with the remainders, `a * t ≡ r`, passes through a division step. -/
theorem bezout_division_step {P a oldR r oldT t : Int} (q : Int) (hold : a * oldT ≡ oldR [ZMOD P])
    (hcur : a * t ≡ r [ZMOD P]) : a * (oldT - q * t) ≡ oldR - q * r [ZMOD P] := by
  rw [mul_sub, mul_left_comm]
  exact hold.sub (hcur.mul_left q)

/-- With iterations enough to bring `r` to 0, the loop answers a coefficient of `a` for the greatest common divisor of the
remainders (rules R117, R119). -/
theorem mul_euclidLoop_modEq_gcd {P a : Int} (fuel : Nat) {oldR r oldT t : Int} (h : CoeffInv P oldR r oldT t)
    (hfuel : r ≤ fuel) (hold : a * oldT ≡ oldR [ZMOD P]) (hcur : a * t ≡ r [ZMOD P]) :
    a * euclidLoop fuel oldR r oldT t ≡ Int.gcd oldR r [ZMOD P] := by
  induction fuel generalizing oldR r oldT t with
  | zero =>
    obtain rfl : r = 0 := le_antisymm hfuel h.r_nonneg
    rwa [euclidLoop, h.gcd_zero]
  | succ fuel ih =>
    rw [euclidLoop]
    split
    next hr =>
      subst hr
      rwa [h.gcd_zero]
    next hr =>
      have hnext := h.next hr
      rw [Int.gcd_comm, ← Int.gcd_sub_mul_right_right r oldR (oldR / r)]
      have hlt := hnext.r_lt
      exact ih hnext (by omega) hcur (bezout_division_step _ hold hcur)

section
variable {P a : Nat} (ha : a < P)
include ha

/-- Rule R121: one addition of `P` normalizes the coefficient. -/
theorem finv_eq_ite : (finv P a : Int) =
    if 0 ≤ euclidLoop a P a 0 1 then euclidLoop a P a 0 1 else euclidLoop a P a 0 1 + P := by
  have h := abs_lt.mp (euclidLoop_abs_lt a (CoeffInv.start ha))
  unfold finv normalizeCoeff
  split <;> split <;> omega

/-- The normalization does not change the residue. -/
theorem finv_modEq_euclidLoop : finv P a ≡ euclidLoop a P a 0 1 [ZMOD P] := by
  rw [finv_eq_ite ha]
  split
  · rfl
  · exact Int.add_modEq_right

/-- Rule R122 for any modulus: `finv a` is a coefficient of `a` for the greatest common divisor. -/
theorem mul_finv_modEq_gcd : a * finv P a ≡ Nat.gcd P a [MOD P] := by
  have hloop : a * euclidLoop a P a 0 1 ≡ Int.gcd P a [ZMOD P] :=
    mul_euclidLoop_modEq_gcd a (CoeffInv.start ha) le_rfl (by simp [Int.ModEq]) (by rw [mul_one])
  rw [← Int.natCast_modEq_iff]
  exact_mod_cast ((finv_modEq_euclidLoop ha).mul_left a).trans hloop

variable (hP : P.Prime) (hpos : 0 < a)
include hP hpos

theorem mul_finv_mod : a * finv P a % P = 1 := by
  have h := mul_finv_modEq_gcd ha
  rw [Nat.coprime_of_lt_prime hpos.ne' ha hP] at h
  exact Nat.mod_eq_of_modEq h hP.one_lt

/-- Rule R122: there is one inverse below `P`. -/
theorem eq_finv_of_mul_mod_eq_one {v : Nat} (hv : v < P) (h : a * v % P = 1) : v = finv P a :=
  have hmul : a * v ≡ a * finv P a [MOD P] := h.trans (mul_finv_mod ha hP hpos).symm
  (hmul.cancel_left_of_coprime (Nat.coprime_of_lt_prime hpos.ne' ha hP)).eq_of_lt_of_lt hv (finv_lt ha)

theorem finv_pos : 0 < finv P a := by
  have hinv := mul_finv_mod ha hP hpos
  refine Nat.pos_of_ne_zero fun hzero => ?_
  rw [hzero, Nat.mul_zero, Nat.zero_mod] at hinv
  cases hinv

/-- Fermat's little theorem, in the form of rule R123. -/
theorem mul_pow_sub_two_mod : a * (a ^ (P - 2) % P) % P = 1 := by
  have hfermat := Nat.ModEq.pow_totient (Nat.coprime_of_lt_prime hpos.ne' ha hP).symm
  have hexp : P - 1 = P - 2 + 1 := by have := hP.two_le; omega
  rw [Nat.totient_prime hP, hexp, pow_succ'] at hfermat
  rw [Nat.mul_mod_mod]
  exact Nat.mod_eq_of_modEq hfermat hP.one_lt

end

/-- Settles O42: the loop's coefficient is one of `gcd(P, a) = 1`, and `a` can be cancelled mod `P`. -/
theorem finvIsTheInverse : Obligations.FinvIsTheInverse := fun _ _ ⟨hP, _⟩ hpos ha =>
  ⟨finv_lt ha, mul_finv_mod ha hP hpos, fun _ => eq_finv_of_mul_mod_eq_one ha hP hpos⟩

/-- Settles O43: by Fermat's little theorem the power is an inverse too, and there is only one. -/
theorem finvIsFermatPower : Obligations.FinvIsFermatPower := fun _ _ ⟨hP, _⟩ hpos ha =>
  (eq_finv_of_mul_mod_eq_one ha hP hpos (Nat.mod_lt _ hP.pos) (mul_pow_sub_two_mod ha hP hpos)).symm

/-- Settles O45: the loop's invariant bounds the coefficient, and an inverse is not zero. -/
theorem euclidExitRange : Obligations.EuclidExitRange := by
  intro P a ⟨hP, _⟩ hpos ha
  obtain ⟨hlow, hhigh⟩ := abs_lt.mp (euclidLoop_abs_lt a (CoeffInv.start ha))
  exact ⟨hlow, hhigh, finv_eq_ite ha, finv_pos ha hP hpos, Nat.le_pred_of_lt (finv_lt ha)⟩

end Sys2Proof.Machine

namespace Sys2Proof.Machine

open Sys2Proof

/-! ### Commands as byte lists (rules R43, R59, R61, R66) -/

/-- A byte list is the byte lanes of its number (rule R43). -/
theorem bytesOf_bytesVal (bs : List Byte) : bytesOf bs.length (bytesVal bs) = bs := by
  induction bs with
  | nil => rfl
  | cons b bs ih =>
    have hb := b.isLt
    have hhead : BitVec.ofNat 8 (b.toNat + 256 * bytesVal bs) = b := by
      apply BitVec.eq_of_toNat_eq
      rw [BitVec.toNat_ofNat]
      omega
    have htail : (b.toNat + 256 * bytesVal bs) / 256 = bytesVal bs := by omega
    rw [List.length_cons, bytesVal, bytesOf, hhead, htail, ih]

/-- Eight bytes carry a command word exactly when they are its encoding. -/
theorem ofNat_bytesVal_eq_encodeWord_iff {bs : List Byte} (h : bs.length = 8) (i : Instr) :
    BitVec.ofNat 64 (bytesVal bs) = encodeWord i ↔ bs = encode i := by
  have hlt := bytesVal_lt bs
  have hbytes := bytesOf_bytesVal bs
  rw [h] at hlt hbytes
  constructor
  · intro hw
    have hmod : bytesVal bs % 2 ^ 64 = bytesVal bs := Nat.mod_eq_of_lt hlt
    rw [encode, ← hw, BitVec.toNat_ofNat, hmod, hbytes]
  · rintro rfl
    have hword : (encodeWord i).toNat < 256 ^ 8 := (encodeWord i).isLt
    rw [encode, bytesVal_bytesOf, Nat.mod_eq_of_lt hword, BitVec.ofNat_toNat, BitVec.setWidth_eq]

/-- A byte list decodes by its first eight bytes, and the others are the rest (rules R59, R67). -/
theorem decode_eq_ok_iff {bs rest : List Byte} {i : Instr} : decode bs = .ok (i, rest) ↔
    8 ≤ bs.length ∧ decodeWord (BitVec.ofNat 64 (bytesVal (bs.take 8))) = .ok i ∧ bs.drop 8 = rest := by
  unfold decode
  split
  next hshort => exact ⟨nofun, fun h => absurd h.1 (Nat.not_le.mpr hshort)⟩
  next hlong =>
    rw [and_iff_right (Nat.not_lt.mp hlong)]
    cases decodeWord (BitVec.ofNat 64 (bytesVal (bs.take 8))) <;> simp

theorem encode_length (i : Instr) : (encode i).length = 8 := bytesOf_length 8 _

/-- Settles O3: the first eight bytes are the word, and a word decodes to a command only as that command's encoding. -/
theorem decodeEncodeAgree : Obligations.DecodeEncodeAgree := by
  intro bs rest i _
  rw [decode_eq_ok_iff, decodeWord_eq_ok_iff]
  constructor
  · rintro ⟨hlen, hword, rfl⟩
    rw [ofNat_bytesVal_eq_encodeWord_iff (List.length_take_of_le hlen)] at hword
    rw [← hword, List.take_append_drop]
  · rintro rfl
    refine ⟨by simp [encode_length], ?_, List.drop_left' (encode_length i)⟩
    rw [List.take_left' (encode_length i), ofNat_bytesVal_eq_encodeWord_iff (encode_length i)]

theorem word_ofNat_mod (w : Nat) : BitVec.ofNat 64 (w % 2 ^ 64) = BitVec.ofNat 64 w := by
  apply BitVec.eq_of_toNat_eq
  rw [BitVec.toNat_ofNat, BitVec.toNat_ofNat, Nat.mod_mod]

/-- The bits of a table row are read as the word they number. -/
theorem decodeTableWord_64 (w : Nat) : decodeTableWord 64 w = (decodeWord (BitVec.ofNat 64 w)).toOption := by
  have hval : BitVec.ofNat 64 (bytesVal ((bytesOf 8 (w % 2 ^ 64)).take 8)) = BitVec.ofNat 64 w := by
    rw [List.take_of_length_le (bytesOf_length 8 _).le, bytesVal_bytesOf, show 256 ^ 8 = 2 ^ 64 from rfl, Nat.mod_mod,
      word_ofNat_mod]
  rw [decodeTableWord, if_pos le_rfl, decode, if_neg (by simp), hval]
  cases decodeWord (BitVec.ofNat 64 w) <;> rfl

/-- Settles O1: a row's bits decode as the word they number. -/
theorem sevenWordsDecode : Obligations.SevenWordsDecode := by
  unfold Obligations.SevenWordsDecode
  simp only [decodeTableWord_64]
  decide

end Sys2Proof.Machine

namespace Sys2Proof.Machine

open Sys2Proof

/-! ### The turns, and what a command write does (rules R13, R73 to R77, R81) -/

/-- In an idle block the core's turn passes (log entry 4). -/
theorem completionStep_of_idle {s : State} (h : s.busy = false) : completionStep s = .next s := by
  rw [completionStep, h]

/-- With a command in flight the core's turn completes it (rule R81). -/
theorem completionStep_of_busy {s : State} {i : Instr} (hb : s.busy = true) (hl : s.lop = opcodeOf i) :
    completionStep s = exec i s := by
  rw [completionStep, hb, hl, decodeOp_opcodeOf]

theorem step_of_access {s : State} {x : Transaction} {ts : List Turn} (h : s.agenda = .access x :: ts) :
    step s = .next (busAccess x (setAgenda ts s)) := by
  rw [step, h]
  rfl

theorem step_of_reset {s : State} {ts : List Turn} (h : s.agenda = .reset :: ts) :
    step s = .next (resetBlock (setAgenda ts s)) := by
  rw [step, h]
  rfl

theorem step_of_coreMovesNext {s : State} (h : coreMovesNext s = true) :
    step s = completionStep (setAgenda s.agenda.tail s) := by
  obtain ⟨-, hs⟩ | ⟨x, ts, ha, -⟩ | ⟨ts, ha, -⟩ := step_cases s
  · exact hs
  · simp [coreMovesNext, ha] at h
  · simp [coreMovesNext, ha] at h

theorem coreMovesNext_of_core {s : State} {ts : List Turn} (h : s.agenda = .core :: ts) : coreMovesNext s = true := by
  rw [coreMovesNext, h]

theorem coreMovesNext_of_nil {s : State} (h : s.agenda = []) : coreMovesNext s = true := by
  rw [coreMovesNext, h]

/-- Taking a turn from an empty agenda changes nothing. -/
theorem setAgenda_eq_self {s : State} {ts : List Turn} (h : s.agenda = ts) : setAgenda ts s = s := h ▸ rfl

/-- Settles O4: the core moves, and its turn is the completion of the latched command. -/
theorem stepRunsLatchedCommand : Obligations.StepRunsLatchedCommand := fun s _ hmove hbusy hlop => by
  rw [step_of_coreMovesNext hmove]
  exact completionStep_of_busy (s := setAgenda s.agenda.tail s) hbusy hlop

/-- Settles O7: one equation of `step` for each kind of turn. -/
theorem stepTakesTheNextTurn : Obligations.StepTakesTheNextTurn := by
  refine ⟨fun s x ts ha => step_of_access ha, fun s ts ha => step_of_reset ha, fun s ts hbusy ha => ?_,
    fun s hbusy ha => ?_⟩
  · rw [step_of_coreMovesNext (coreMovesNext_of_core ha), ha]
    exact completionStep_of_idle (s := setAgenda ts s) hbusy
  · rw [step_of_coreMovesNext (coreMovesNext_of_nil ha), ha, List.tail_nil, setAgenda_eq_self ha]
    exact completionStep_of_idle hbusy

/-- `accept_cases` for a word that decodes. -/
theorem accept_of_ok {w : Word} {i : Instr} (h : decodeWord w = .ok i) (s : State) :
    accept w s = start i (setLastop (opField w) (setErr .none (setOvr false s))) := by
  rw [accept, h]

/-- `accept_cases` for a word that is no legal command. -/
theorem accept_of_error {w : Word} {e : Illegal} (h : decodeWord w = .error e) (s : State) :
    accept w s = illegalCommand (setLastop (opField w) (setErr .none (setOvr false s))) := by
  rw [accept, h]

/-- What accepting a legal word leaves (rules R74, R76). -/
theorem accept_legal {w : Word} {i : Instr} (h : decodeWord w = .ok i) (s : State) :
    accept w s = { s with
      ovr := false, err := 0, lastop := opcodeOf i, lop := opcodeOf i
      la := BitVec.ofNat 256 (valLimbs4 s.a), lb := BitVec.ofNat 256 (valLimbs4 s.b), busy := true } := by
  rw [accept_of_ok h, opField_of_decodeWord h, start, latch, setBusy, setLastop, setErr, setOvr, errorCode]

theorem cmdWrite_of_busy {s : State} (h : s.busy = true) (w : Word) : cmdWrite w s = ignoreCommand s := by
  rw [cmdWrite, h]

theorem cmdWrite_of_idle {s : State} (h : s.busy = false) (w : Word) : cmdWrite w s = accept w s := by
  rw [cmdWrite, h]

/-- Settles O8: the write is accepted, and its word starts the command whose opcode is in `OP`. -/
theorem legalCommandIsAccepted : Obligations.LegalCommandIsAccepted := by
  intro s w i hbusy hw
  rw [busAccess_cmd, cmdWrite_of_idle hbusy, accept_legal hw, ← opField, opField_of_decodeWord hw, respond]

/-- Settles O10: a write while busy is ignored, whatever its word. -/
theorem busyCommandIsIgnored : Obligations.BusyCommandIsIgnored := by
  intro s w hbusy
  rw [busAccess_cmd, cmdWrite_of_busy hbusy]
  rfl

/-- What the write of an illegal word in an idle block leaves (rule R75). -/
theorem busAccess_illegal {s : State} {w : Word} {e : Illegal} (hbusy : s.busy = false) (hw : decodeWord w = .error e) :
    busAccess ⟨.write, 0x60, 8, w⟩ s =
      { s with ovr := false, err := 4, lastop := opField w, response := some .done } := by
  rw [busAccess_cmd, cmdWrite_of_idle hbusy, accept_of_error hw]
  rfl

/-- Settles O9: the word is accepted as illegal; in an idle block with `EQ = 0` the fields it leaves in `STATUS` add up to
`0x8400`. -/
theorem illegalCommandIsRecorded : Obligations.IllegalCommandIsRecorded := by
  refine ⟨fun s w e hbusy hw => busAccess_illegal hbusy hw, fun s hbusy heq => ?_⟩
  have hword : decodeWord 0x8 = .error (.opcode 8) := rfl
  rw [busAccess_illegal hbusy hword]
  refine congrArg (fun v => some (Response.data v)) (BitVec.eq_of_toNat_eq ?_)
  show (statusWord _).toNat = _
  simp [statusWord_toNat, hbusy, heq, opField]

/-- A latch holds the value of an operand register whole (rules R33, R76). -/
theorem ofNat_valLimbs4_toNat (l : Limbs4) : (BitVec.ofNat 256 (valLimbs4 l)).toNat = valLimbs4 l := by
  rw [BitVec.toNat_ofNat, Nat.mod_eq_of_lt (valLimbs4_lt l)]

/-- Settles O6: the write leaves the command latched with the values of A and B, and the core's turn completes it. -/
theorem commandWriteThenCompletion : Obligations.CommandWriteThenCompletion := by
  intro s w i ts hbusy hw hagenda
  have haccept := legalCommandIsAccepted (setAgenda (.core :: ts) s) w i hbusy hw
  refine ⟨_, step_of_access hagenda, ?_, ?_, ?_⟩ <;> rw [haccept]
  · exact stepRunsLatchedCommand _ i rfl rfl (opField_of_decodeWord hw)
  · exact ofNat_valLimbs4_toNat s.a
  · exact ofNat_valLimbs4_toNat s.b

/-- Settles O5: the word is latched with the core's turn next, so the step is its completion. -/
theorem placedCommandRuns : Obligations.PlacedCommandRuns := by
  intro s w i hw
  rw [decodeTableWord_64] at hw
  have hdecode : decodeWord (BitVec.ofNat 64 w) = .ok i := by
    cases h : decodeWord (BitVec.ofNat 64 w) with
    | ok j => rw [h] at hw; exact congrArg _ (Option.some.inj hw)
    | error e => rw [h] at hw; cases hw
  have hplaced : s.withFetchWord 64 w =
      setAgenda (.core :: s.agenda) (accept (BitVec.ofNat 64 w) (setBusy false s)) := by
    rw [State.withFetchWord, word_ofNat_mod, placeCommand, hdecode]
  rw [hplaced, accept_legal hdecode, stepRunsLatchedCommand _ i rfl rfl rfl]
  exact congrArg (exec i) rfl

end Sys2Proof.Machine

namespace Sys2Proof.Machine

open Sys2Proof

/-! ### The invariant, at reset and over a step (rules R15, R39, R40) -/

/-- Settles O48: each agent's turn keeps the invariant. -/
theorem stepKeepsTheInvariant : Obligations.StepKeepsTheInvariant := fun _ _ => step_inv

/-- Settles O47: the invariant at reset is `reset_inv`; the values are those `State.reset` writes out. -/
theorem resetMeetsTheInvariant : Obligations.ResetMeetsTheInvariant :=
  ⟨reset_inv, rfl, rfl, rfl, rfl, rfl, rfl, rfl, rfl, rfl⟩

end Sys2Proof.Machine

namespace Sys2Proof.Machine

open Sys2Proof

/-! ### What the latches hold in an idle block is never observed (rules R33, R34, R38) -/

theorem SameButIdleLatches.refl (s : State) : SameButIdleLatches s s := ⟨rfl, fun _ => rfl⟩

theorem SameOutcome.refl {rel : State → State → Prop} (hrel : ∀ s, rel s s) (o : Host.Outcome State Fault Refusal) :
    SameOutcome rel o o := by
  cases o with
  | next s => exact hrel s
  | fault x => rfl
  | refused x => rfl

section
variable {s t : State} (h : SameButIdleLatches s t)
include h

/-- An operation that neither reads nor writes the latches keeps the relation. -/
theorem SameButIdleLatches.map {f : State → State}
    (hcomm : ∀ la lb lop, f { s with la := la, lb := lb, lop := lop } = { f s with la := la, lb := lb, lop := lop })
    (hbusy : (f s).busy = s.busy) : SameButIdleLatches (f s) (f t) := by
  obtain ⟨ht, hsame⟩ := h
  refine ⟨?_, fun hb => by rw [hsame (hbusy ▸ hb)]⟩
  rw [ht, hcomm]

/-- An operation that overwrites the latches leaves no difference. -/
theorem SameButIdleLatches.map_of_overwrite {f : State → State}
    (hover : ∀ la lb lop, f { s with la := la, lb := lb, lop := lop } = f s) : SameButIdleLatches (f s) (f t) := by
  have hf : f t = f s := by rw [h.1, hover]
  exact hf ▸ .refl _

theorem SameButIdleLatches.busy_eq : t.busy = s.busy := by rw [h.1]

theorem SameButIdleLatches.agenda_eq : t.agenda = s.agenda := by rw [h.1]

theorem SameButIdleLatches.response_eq : t.response = s.response := by rw [h.1]

/-- No read returns a latch (rule R38). -/
theorem SameButIdleLatches.busRead_eq (P : Nat) (off : BitVec 8) : busRead P off t = busRead P off s := by
  rw [h.1]
  unfold busRead
  cases windowReg off <;> rfl

theorem SameButIdleLatches.setAgenda (ts : List Turn) : SameButIdleLatches (setAgenda ts s) (setAgenda ts t) :=
  h.map (f := Machine.setAgenda ts) (fun _ _ _ => rfl) rfl

theorem SameButIdleLatches.respond (x : Response) : SameButIdleLatches (respond x s) (respond x t) :=
  h.map (f := Machine.respond x) (fun _ _ _ => rfl) rfl

/-- An accepted command overwrites the latches; an illegal word leaves them. -/
theorem SameButIdleLatches.accept (w : Word) : SameButIdleLatches (accept w s) (accept w t) := by
  cases hw : decodeWord w with
  | ok i =>
    rw [accept_of_ok hw, accept_of_ok hw]
    exact h.map_of_overwrite (f := fun u => start i (setLastop (opField w) (setErr .none (setOvr false u))))
      fun _ _ _ => rfl
  | error e =>
    rw [accept_of_error hw, accept_of_error hw]
    exact h.map (f := fun u => illegalCommand (setLastop (opField w) (setErr .none (setOvr false u))))
      (fun _ _ _ => rfl) rfl

theorem SameButIdleLatches.cmdWrite (w : Word) : SameButIdleLatches (cmdWrite w s) (cmdWrite w t) := by
  unfold Machine.cmdWrite
  rw [h.busy_eq]
  cases s.busy with
  | true => exact h.map (f := ignoreCommand) (fun _ _ _ => rfl) rfl
  | false => exact h.accept w

theorem SameButIdleLatches.busWrite (off : BitVec 8) (d : Word) :
    SameButIdleLatches (busWrite off d s) (busWrite off d t) := by
  unfold Machine.busWrite
  cases windowReg off with
  | a i => exact h.map (f := fun u => setA (setLimb u.a i d) u) (fun _ _ _ => rfl) rfl
  | b i => exact h.map (f := fun u => setB (setLimb u.b i d) u) (fun _ _ _ => rfl) rfl
  | cmd => exact h.cmdWrite d
  | r i => exact h
  | status => exact h
  | modulus i => exact h
  | reserved => exact h

theorem SameButIdleLatches.busAccess (x : Transaction) : SameButIdleLatches (busAccess x s) (busAccess x t) := by
  unfold Machine.busAccess
  rw [h.busRead_eq]
  split
  · exact h.respond _
  · exact h.respond _
  · exact (h.busWrite x.off x.data).respond .done

/-- With a command in flight the states are equal; with none the core's turn passes. -/
theorem SameButIdleLatches.completionStep :
    SameOutcome SameButIdleLatches (completionStep s) (completionStep t) := by
  cases hb : s.busy with
  | true => exact (h.2 hb) ▸ SameOutcome.refl .refl _
  | false =>
    rw [completionStep_of_idle hb, completionStep_of_idle (h.busy_eq.trans hb)]
    exact h

theorem SameButIdleLatches.takeTurn (x : Turn) : SameOutcome SameButIdleLatches (takeTurn x s) (takeTurn x t) := by
  cases x with
  | core => exact h.completionStep
  | access x => exact h.busAccess x
  | reset => exact h.map_of_overwrite (f := resetBlock) fun _ _ _ => rfl

/-- One step keeps the relation, or stops both runs alike. -/
theorem SameButIdleLatches.step : SameOutcome SameButIdleLatches (step s) (step t) := by
  unfold Machine.step
  rw [h.agenda_eq]
  cases s.agenda with
  | nil => exact h.completionStep
  | cons x ts => exact (h.setAgenda ts).takeTurn x

end

theorem SameButIdleLatches.run (n : Nat) {s t : State} (h : SameButIdleLatches s t) :
    SameOutcome SameButIdleLatches (Host.Core.run core n s) (Host.Core.run core n t) := by
  induction n generalizing s t with
  | zero => exact h
  | succ n ih =>
    have hstep := h.step
    rw [run_succ, run_succ]
    cases hs : Machine.step s <;> cases ht : Machine.step t <;> rw [hs, ht] at hstep
    case next.next => exact ih hstep
    case fault.fault => exact hstep
    case refused.refused => exact hstep
    all_goals exact hstep.elim

/-- Settles O56: no read and no answer shows a latch, and a step keeps the relation, so every run does. -/
theorem idleLatchesAreUnobservable : Obligations.IdleLatchesAreUnobservable :=
  ⟨fun _ _ h => ⟨h.response_eq, h.busRead_eq Config.P⟩, fun n _ _ h => h.run n⟩

end Sys2Proof.Machine

namespace Sys2Proof.Machine

open Sys2Proof

/-! ### The command function: its checks, then its value (rules R62, R79, R80) -/

/-- What a command answers on operands that its checks let through (rule R80). -/
def uncheckedResult (P : Nat) (i : Instr) (a b : Nat) : Result :=
  match i with
  | .fload => .val (fload P a)
  | .fadd => .val (fadd P a b)
  | .fsub => .val (fsub P a b)
  | .fmul => .val (fmul P a b)
  | .fneg => .val (fneg P a)
  | .finv => .val (finv P a)
  | .feq => .flag (feqFlag a b)

/-- Every command checks A, then B, then an inversion for zero, and the first failure is its answer (rules R79, R83). -/
theorem commandResult_eq (P : Nat) (i : Instr) (a b : Nat) :
    commandResult P i a b =
      if checksA i = true ∧ P ≤ a then .err .noncanonicalA
      else if checksB i = true ∧ P ≤ b then .err .noncanonicalB
      else if i = .finv ∧ a = 0 then .err .divByZero
      else uncheckedResult P i a b := by
  cases i <;>
    simp [commandResult, uncheckedResult, checksA, checksB, floadResult, faddResult, fsubResult, fmulResult, fnegResult,
      finvResult, feqResult, checkAB, checkA, checkB]

/-- FEQ answers a flag and every other command a value. -/
theorem uncheckedResult_cases (P : Nat) (i : Instr) (a b : Nat) :
    (i ≠ .feq ∧ ∃ v, uncheckedResult P i a b = .val v) ∨ (i = .feq ∧ uncheckedResult P i a b = .flag (feqFlag a b)) := by
  cases i
  case feq => exact .inr ⟨rfl, rfl⟩
  all_goals exact .inl ⟨nofun, _, rfl⟩

section
variable {P a b : Nat} {i : Instr}

theorem commandResult_of_noncanonicalA (hi : checksA i = true) (ha : P ≤ a) :
    commandResult P i a b = .err .noncanonicalA := by
  rw [commandResult_eq, if_pos ⟨hi, ha⟩]

theorem commandResult_of_noncanonicalB (ha : a < P) (hi : checksB i = true) (hb : P ≤ b) :
    commandResult P i a b = .err .noncanonicalB := by
  rw [commandResult_eq, if_neg fun h => absurd h.2 (Nat.not_le.mpr ha), if_pos ⟨hi, hb⟩]

theorem commandResult_finv_zero (hP : 0 < P) : commandResult P .finv 0 b = .err .divByZero := by
  rw [commandResult_eq, if_neg fun h => absurd h.2 (Nat.not_le.mpr hP), if_neg fun h => Bool.noConfusion h.1,
    if_pos ⟨rfl, rfl⟩]

/-- On canonical operands, as far as they are checked, a command answers its value. -/
theorem commandResult_of_canonical (ha : checksA i = true → a < P) (hb : checksB i = true → b < P)
    (hzero : i = .finv → a ≠ 0) : commandResult P i a b = uncheckedResult P i a b := by
  rw [commandResult_eq, if_neg fun h => absurd h.2 (Nat.not_le.mpr (ha h.1)),
    if_neg fun h => absurd h.2 (Nat.not_le.mpr (hb h.1)), if_neg fun h => hzero h.1 h.2]

end

section
variable {i : Instr} {s : State}

theorem exec_of_val {v : Nat} (h : commandResult Config.P i s.la.toNat s.lb.toNat = .val v) :
    exec i s = .next { s with r := ofNatLimbs4 v, busy := false } := by
  rw [exec_eq_commandResult, h]
  rfl

theorem exec_of_flag {e : Bool} (h : commandResult Config.P i s.la.toNat s.lb.toNat = .flag e) :
    exec i s = .next { s with eq := e, busy := false } := by
  rw [exec_eq_commandResult, h]
  rfl

theorem exec_of_err {c : ErrorCode} (h : commandResult Config.P i s.la.toNat s.lb.toNat = .err c) :
    exec i s = .next { s with err := errorCode c, busy := false } := by
  rw [exec_eq_commandResult, h]
  rfl

end

/-! ### The seven commands on the operands they accept (rules R98 to R103, R110, R112, R115) -/

/-- Settles O20: FLOAD checks nothing, and its reducer is the remainder. -/
theorem floadReduces : Obligations.FloadReduces := fun s => by
  rw [← fload_eq_mod Config.P_pos Config.P_lt s.la.isLt]
  exact exec_of_val (commandResult_of_canonical nofun nofun nofun)

/-- Settles O21: the checks let the operands through, and the value is the sum mod `P`. -/
theorem faddAdds : Obligations.FaddAdds := fun s ha hb => by
  rw [← fadd_eq_mod Config.P_lt ha hb]
  exact exec_of_val (commandResult_of_canonical (fun _ => ha) (fun _ => hb) nofun)

/-- Settles O22: the checks let the operands through, and the value is the difference mod `P`. -/
theorem fsubSubtracts : Obligations.FsubSubtracts := fun s ha hb => by
  rw [← fsub_eq_emod Config.P_lt ha hb]
  exact exec_of_val (commandResult_of_canonical (fun _ => ha) (fun _ => hb) nofun)

/-- Settles O23: the checks let the operands through, and the value is the product mod `P`. -/
theorem fmulMultiplies : Obligations.FmulMultiplies := fun s ha hb => by
  rw [← fmul_eq_mod Config.P_lt ha hb]
  exact exec_of_val (commandResult_of_canonical (fun _ => ha) (fun _ => hb) nofun)

/-- Settles O24: FNEG checks A only, and the value is the negative. -/
theorem fnegNegates : Obligations.FnegNegates := fun s ha => by
  rw [← fneg_eq Config.P_lt ha]
  exact exec_of_val (commandResult_of_canonical (fun _ => ha) nofun nofun)

/-- Settles O25: FINV checks A only, and the value is the inverse. -/
theorem finvInverts : Obligations.FinvInverts := fun s hpos ha =>
  ⟨finv Config.P s.la.toNat, finv_lt ha, mul_finv_mod ha Config.P_prime hpos,
    exec_of_val (commandResult_of_canonical (fun _ => ha) nofun fun _ => hpos.ne')⟩

/-- Equal limb arrays denote equal numbers below `2^256`, so FEQ compares the operands (rule R103). -/
theorem feqFlag_eq {a b : Nat} (ha : a < 2 ^ 256) (hb : b < 2 ^ 256) : feqFlag a b = decide (a = b) := by
  refine decide_eq_decide.mpr ⟨fun h => ?_, congrArg ofNatLimbs4⟩
  rw [← valLimbs4_ofNatLimbs4_of_lt ha, h, valLimbs4_ofNatLimbs4_of_lt hb]

/-- Settles O26: the checks let the operands through, and the flag is their comparison. -/
theorem feqCompares : Obligations.FeqCompares := fun s ha hb => by
  rw [← feqFlag_eq s.la.isLt s.lb.isLt]
  exact exec_of_flag (commandResult_of_canonical (fun _ => ha) (fun _ => hb) nofun)

/-! ### The errors (rules R116, R125 to R132) -/

/-- Settles O27: the six commands are those that check A. -/
theorem noncanonicalAIsReported : Obligations.NoncanonicalAIsReported := fun s i hi ha => by
  have hchecks : checksA i = true := by
    rcases hi with rfl | rfl | rfl | rfl | rfl | rfl <;> rfl
  exact exec_of_err (commandResult_of_noncanonicalA hchecks ha)

/-- Settles O28: the four commands are those that check B. -/
theorem noncanonicalBIsReported : Obligations.NoncanonicalBIsReported := fun s i hi ha hb => by
  have hchecks : checksB i = true := by
    rcases hi with rfl | rfl | rfl | rfl <;> rfl
  exact exec_of_err (commandResult_of_noncanonicalB ha hchecks hb)

/-- A completion without error leaves `ERR`. -/
theorem exec_err_of_unchecked {i : Instr} {s t : State} (h : exec i s = .next t)
    (hres : commandResult Config.P i s.la.toNat s.lb.toNat = uncheckedResult Config.P i s.la.toNat s.lb.toNat) :
    t.err = s.err := by
  obtain ⟨-, v, hv⟩ | ⟨-, hf⟩ := uncheckedResult_cases Config.P i s.la.toNat s.lb.toNat
  · rw [exec_of_val (hres.trans hv)] at h
    cases h
    rfl
  · rw [exec_of_flag (hres.trans hf)] at h
    cases h
    rfl

theorem eq_of_exec_of_err {i : Instr} {s t : State} {c : ErrorCode} (h : exec i s = .next t)
    (hres : commandResult Config.P i s.la.toNat s.lb.toNat = .err c) :
    t = { s with err := errorCode c, busy := false } :=
  Host.Outcome.next.inj (h.symm.trans (exec_of_err hres))

/-- Settles O30: the branches are those of the command function. -/
theorem errorPriority : Obligations.ErrorPriority := by
  intro s t i h
  refine ⟨?_, exec_ovr h⟩
  have hres := commandResult_eq Config.P i s.la.toNat s.lb.toNat
  split_ifs at hres ⊢
  · exact congrArg State.err (eq_of_exec_of_err h hres)
  · exact congrArg State.err (eq_of_exec_of_err h hres)
  · exact congrArg State.err (eq_of_exec_of_err h hres)
  · exact exec_err_of_unchecked h hres

/-- Settles O29: zero is below `P`, so FINV reports it; by `errorPriority` code 1 has no other cause. -/
theorem divisionByZeroIsReported : Obligations.DivisionByZeroIsReported := by
  refine ⟨fun s hzero => ?_, fun s t i herr h ht => ?_⟩
  · have hres : commandResult Config.P .finv s.la.toNat s.lb.toNat = .err .divByZero := by
      rw [hzero]
      exact commandResult_finv_zero Config.P_pos
    exact exec_of_err hres
  · have hcode := (errorPriority s t i h).1
    rw [ht, herr] at hcode
    split_ifs at hcode with hA hB hzero
    · cases hcode
    · cases hcode
    · exact hzero
    · cases hcode

/-! ### What a completion reads and writes (rules R62, R80, R81, R106) -/

/-- Settles O33: equal latches give the same result of the command function, and the result says which field is written. -/
theorem commandReadsOnlyItsLatches : Obligations.CommandReadsOnlyItsLatches := by
  intro s t s' t' i hla hlb hs ht
  rw [exec_eq_commandResult] at hs ht
  rw [← hla, ← hlb] at ht
  cases hs
  cases ht
  cases commandResult Config.P i s.la.toNat s.lb.toNat with
  | val v => exact .inl ⟨rfl, rfl⟩
  | flag e => exact .inr (.inl ⟨rfl, rfl⟩)
  | err c => exact .inr (.inr ⟨rfl, rfl⟩)

/-- A completion writes R where the command is no FEQ, writes `EQ` where it is an FEQ on canonical operands, or reports an
error (rules R80, R81). -/
theorem exec_next {i : Instr} {s t : State} (h : exec i s = .next t) :
    (i ≠ .feq ∧ ∃ v, t = { s with r := ofNatLimbs4 v, busy := false }) ∨
    (i = .feq ∧ s.la.toNat < Config.P ∧ s.lb.toNat < Config.P ∧
      t = { s with eq := decide (s.la.toNat = s.lb.toNat), busy := false }) ∨
    (∃ c, t = { s with err := errorCode c, busy := false }) := by
  have hres := commandResult_eq Config.P i s.la.toNat s.lb.toNat
  split_ifs at hres with hA hB hzero
  · exact .inr (.inr ⟨_, eq_of_exec_of_err h hres⟩)
  · exact .inr (.inr ⟨_, eq_of_exec_of_err h hres⟩)
  · exact .inr (.inr ⟨_, eq_of_exec_of_err h hres⟩)
  · obtain ⟨hi, v, hv⟩ | ⟨rfl, -⟩ := uncheckedResult_cases Config.P i s.la.toNat s.lb.toNat
    · exact .inl ⟨hi, v, Host.Outcome.next.inj (h.symm.trans (exec_of_val (hres.trans hv)))⟩
    · have ha : s.la.toNat < Config.P := Nat.not_le.mp fun hle => hA ⟨rfl, hle⟩
      have hb : s.lb.toNat < Config.P := Nat.not_le.mp fun hle => hB ⟨rfl, hle⟩
      exact .inr (.inl ⟨rfl, ha, hb, Host.Outcome.next.inj (h.symm.trans (feqCompares s ha hb))⟩)

theorem exec_busy {i : Instr} {s t : State} (h : exec i s = .next t) : t.busy = false := by
  obtain ⟨v, rfl⟩ | ⟨e, rfl⟩ | ⟨c, rfl⟩ := exec_cases h <;> rfl

end Sys2Proof.Machine

namespace Sys2Proof.Machine

open Sys2Proof

/-! ### The address map (rule R45) -/

theorem toNat_of_windowReg_a {off : BitVec 8} {i : Fin 4} (h : windowReg off = .a i) : off.toNat = 8 * i.val := by
  revert off i; decide

theorem toNat_of_windowReg_b {off : BitVec 8} {i : Fin 4} (h : windowReg off = .b i) :
    off.toNat = 0x20 + 8 * i.val := by
  revert off i; decide

theorem toNat_of_windowReg_r {off : BitVec 8} {i : Fin 4} (h : windowReg off = .r i) :
    off.toNat = 0x40 + 8 * i.val := by
  revert off i; decide

theorem toNat_of_windowReg_status {off : BitVec 8} (h : windowReg off = .status) : off.toNat = 0x68 := by
  revert off; decide

/-- The aligned offsets below `0x40` are the limbs of A and B. -/
theorem windowReg_of_operand {off : BitVec 8} (halign : off.toNat % 8 = 0) (hlt : off.toNat < 0x40) :
    (∃ i, windowReg off = .a i) ∨ (∃ i, windowReg off = .b i) := by
  revert off; decide

theorem windowReg_of_reserved {off : BitVec 8} (halign : off.toNat % 8 = 0)
    (h : off.toNat = 0x70 ∨ off.toNat = 0x78 ∨ 0xA0 ≤ off.toNat) : windowReg off = .reserved := by
  revert off; decide

/-- Different offsets are different limbs of A. -/
theorem ne_of_windowReg_a {x y : BitVec 8} {i j : Fin 4} (hx : windowReg x = .a i) (hy : windowReg y = .a j)
    (hne : x ≠ y) : i ≠ j := by
  rintro rfl
  exact hne (BitVec.eq_of_toNat_eq ((toNat_of_windowReg_a hx).trans (toNat_of_windowReg_a hy).symm))

/-- Different offsets are different limbs of B. -/
theorem ne_of_windowReg_b {x y : BitVec 8} {i j : Fin 4} (hx : windowReg x = .b i) (hy : windowReg y = .b j)
    (hne : x ≠ y) : i ≠ j := by
  rintro rfl
  exact hne (BitVec.eq_of_toNat_eq ((toNat_of_windowReg_b hx).trans (toNat_of_windowReg_b hy).symm))

/-! ### Reads (rules R46, R50) -/

/-- An aligned 8-byte read is answered with the word of its offset (rule R50). -/
theorem busAccess_read {off : BitVec 8} (h : off.toNat % 8 = 0) (d : Word) (s : State) :
    busAccess ⟨.read, off, 8, d⟩ s = respond (.data (readWord off s)) s := by
  simp [busAccess, h, readWord]

/-- No read returns an earlier answer. -/
@[simp] theorem readWord_respond (off : BitVec 8) (x : Response) (s : State) :
    readWord off (respond x s) = readWord off s := by
  unfold readWord busRead
  cases windowReg off <;> rfl

theorem readWord_of_reserved {off : BitVec 8} (h : windowReg off = .reserved) (s : State) : readWord off s = 0 := by
  rw [readWord, busRead, h]

/-- Settles O11: a read is answered with `readWord` and leaves it, and `readWord` follows the address map. -/
theorem readsReturnTheRegisters : Obligations.ReadsReturnTheRegisters := by
  refine ⟨fun s off d halign => ⟨readWord off s, busAccess_read halign d s, ?_, rfl⟩, fun s => ?_,
    fun s off halign hoff => readWord_of_reserved (windowReg_of_reserved halign hoff) s⟩
  · rw [busAccess_read halign, busAccess_read halign, readWord_respond]
    rfl
  · exact ⟨rfl, rfl, rfl, rfl, rfl, rfl, rfl, rfl, rfl, rfl, rfl, rfl, rfl, statusWord_toNat s, rfl, rfl, rfl, rfl⟩

/-- Settles O17: a bad size or alignment is an ill-formed transaction, which is answered with the error. -/
theorem busErrorChangesNothing : Obligations.BusErrorChangesNothing := by
  intro s x hx
  have hwf : x.wellFormed = false := by
    rw [Transaction.wellFormed, Bool.and_eq_false_iff, beq_eq_false_iff_ne, beq_eq_false_iff_ne]
    exact hx
  have herr : busAccess x s = respond (.error ⟨x.off, x.size⟩) s := by
    obtain ⟨-, h⟩ | ⟨h, -⟩ | ⟨h, -⟩ := busAccess_cases x s
    · exact h
    · rw [hwf] at h; cases h
    · rw [hwf] at h; cases h
  exact ⟨herr, by rw [herr]; rfl⟩

/-! ### Writes (rules R46, R51, R72) -/

/-- Settles O14: the offsets are the eight limbs of A and B. -/
theorem operandStoreWritesOneLimb : Obligations.OperandStoreWritesOneLimb := by
  intro s d
  refine ⟨?_, ?_, ?_, ?_, ?_, ?_, ?_, ?_⟩ <;> rw [busAccess_write (by decide)] <;> rfl

theorem busWrite_of_a {off : BitVec 8} {i : Fin 4} (h : windowReg off = .a i) (d : Word) (s : State) :
    busWrite off d s = setA (setLimb s.a i d) s := by
  rw [busWrite, h]

theorem busWrite_of_b {off : BitVec 8} {i : Fin 4} (h : windowReg off = .b i) (d : Word) (s : State) :
    busWrite off d s = setB (setLimb s.b i d) s := by
  rw [busWrite, h]

/-- The offsets above the operands hold no storage a write reaches, but for `CMD` (rule R46). -/
theorem busWrite_of_readOnly {off : BitVec 8} (hge : 0x40 ≤ off.toNat) (hcmd : off.toNat ≠ 0x60) (d : Word) (s : State) :
    busWrite off d s = s := by
  obtain ⟨i, hreg, -⟩ | ⟨i, hreg, -⟩ | ⟨hreg, -⟩ | h := busWrite_cases off d s
  · have := toNat_of_windowReg_a hreg
    omega
  · have := toNat_of_windowReg_b hreg
    omega
  · exact absurd (congrArg BitVec.toNat (windowReg_eq_cmd hreg)) hcmd
  · exact h

/-- Settles O13: such a write reaches no storage; `CMD` and the reserved offsets read 0; a read changes only the answer. -/
theorem readOnlyWritesAreIgnored : Obligations.ReadOnlyWritesAreIgnored := by
  refine ⟨fun s off d halign hge hcmd => ?_, fun s off d halign hoff => ?_,
    fun s d => ⟨_, busAccess_read (by decide) d s⟩⟩
  · rw [busAccess_write halign, busWrite_of_readOnly hge hcmd]
    rfl
  · have hzero : readWord off s = 0 := by
      obtain hoff | hoff := hoff
      · obtain rfl : off = 0x60 := BitVec.eq_of_toNat_eq hoff
        rfl
      · exact readWord_of_reserved (windowReg_of_reserved halign hoff) s
    rw [busAccess_read halign, hzero]
    rfl

/-- A limb of A is written for its own offset only (rule R19). -/
theorem readWord_setA_limb {x y : BitVec 8} {i : Fin 4} (hx : windowReg x = .a i) (hne : y ≠ x) (d : Word) (s : State) :
    readWord y (setA (setLimb s.a i d) s) = readWord y s := by
  unfold readWord busRead
  cases hy : windowReg y with
  | a j => exact getLimb_setLimb_other s.a (ne_of_windowReg_a hy hx hne) d
  | _ => rfl

/-- A limb of B is written for its own offset only (rule R19). -/
theorem readWord_setB_limb {x y : BitVec 8} {i : Fin 4} (hx : windowReg x = .b i) (hne : y ≠ x) (d : Word) (s : State) :
    readWord y (setB (setLimb s.b i d) s) = readWord y s := by
  unfold readWord busRead
  cases hy : windowReg y with
  | b j => exact getLimb_setLimb_other s.b (ne_of_windowReg_b hy hx hne) d
  | _ => rfl

/-- Settles O15: the offset is a limb of A or of B; that limb reads the data, and no other offset reads that limb. -/
theorem readAfterOperandWrite : Obligations.ReadAfterOperandWrite := by
  intro s off d halign hlt
  rw [busAccess_write halign]
  obtain ⟨i, hreg⟩ | ⟨i, hreg⟩ := windowReg_of_operand halign hlt
  · rw [busWrite_of_a hreg]
    refine ⟨?_, fun off' _ hne => ?_⟩ <;> rw [readWord_respond]
    · rw [readWord, busRead, hreg]
      exact getLimb_setLimb_same s.a i d
    · exact readWord_setA_limb hreg hne d s
  · rw [busWrite_of_b hreg]
    refine ⟨?_, fun off' _ hne => ?_⟩ <;> rw [readWord_respond]
    · rw [readWord, busRead, hreg]
      exact getLimb_setLimb_same s.b i d
    · exact readWord_setB_limb hreg hne d s

theorem setLimb_comm (l : Limbs4) {i j : Fin 4} (h : i ≠ j) (d e : Word) :
    setLimb (setLimb l j e) i d = setLimb (setLimb l i d) j e := by
  fin_cases i <;> fin_cases j <;> simp_all [setLimb]

/-- Settles O16: the writes are to different limbs, or to different registers. -/
theorem operandWritesCommute : Obligations.OperandWritesCommute := by
  intro s x y d e hne hx hxlt hy hylt
  simp only [busAccess_write hx, busAccess_write hy]
  obtain ⟨i, hi⟩ | ⟨i, hi⟩ := windowReg_of_operand hx hxlt <;>
    obtain ⟨j, hj⟩ | ⟨j, hj⟩ := windowReg_of_operand hy hylt
  · rw [busWrite_of_a hi, busWrite_of_a hj, busWrite_of_a hi, busWrite_of_a hj]
    exact congrArg (fun l => respond .done (setA l s)) (setLimb_comm s.a (ne_of_windowReg_a hi hj hne) d e)
  · rw [busWrite_of_a hi, busWrite_of_b hj, busWrite_of_a hi, busWrite_of_b hj]
    rfl
  · rw [busWrite_of_b hi, busWrite_of_a hj, busWrite_of_b hi, busWrite_of_a hj]
    rfl
  · rw [busWrite_of_b hi, busWrite_of_b hj, busWrite_of_b hi, busWrite_of_b hj]
    exact congrArg (fun l => respond .done (setB l s)) (setLimb_comm s.b (ne_of_windowReg_b hi hj hne) d e)

end Sys2Proof.Machine

namespace Sys2Proof.Machine

open Sys2Proof

/-! ### The bytes of the window (rules R43 to R45) -/

theorem windowByte_of_outside {addr : Nat} (h : addr < Config.BASE ∨ Config.BASE + 256 ≤ addr) (s : State) :
    windowByte addr s = none := by
  rw [windowByte, windowOffset, if_neg (by omega), Option.map_none]

/-- The byte at an offset of the window is a byte lane of the register whose 8 bytes it lies in. -/
theorem windowByte_at {o : Nat} (h : o < 256) (s : State) : windowByte (Config.BASE + o) s =
    some (byteLane (readWord (BitVec.ofNat 8 (o / 8 * 8)) s) (o % 8)) := by
  rw [windowByte, windowOffset, if_pos (by omega), Option.map_some, Nat.add_sub_cancel_left, BitVec.toNat_ofNat,
    Nat.mod_eq_of_lt h]
  rfl

/-- Byte `k` of limb `i` is byte `8 * i + k` of the register's value. -/
theorem byteLane_getLimb (l : Limbs4) (i : Fin 4) {k : Nat} (hk : k < 8) :
    byteLane (getLimb l i) k = BitVec.ofNat 8 (valLimbs4 l / 256 ^ (8 * i.val + k)) := by
  have h0 := l.l0.isLt
  have h1 := l.l1.isLt
  have h2 := l.l2.isLt
  have h3 := l.l3.isLt
  have hlimb : (getLimb l i).toNat = valLimbs4 l / 2 ^ (64 * i.val) % 2 ^ 64 := by
    unfold valLimbs4
    fin_cases i <;> simp only [getLimb] <;> omega
  have hpow : 256 ^ (8 * i.val + k) = 2 ^ (64 * i.val) * 2 ^ (8 * k) := by
    rw [show 256 = 2 ^ 8 from rfl, ← pow_mul, ← pow_add]
    congr 1
    omega
  apply BitVec.eq_of_toNat_eq
  rw [byteLane, BitVec.extractLsb'_toNat, Nat.shiftRight_eq_div_pow, BitVec.toNat_ofNat, hlimb, hpow,
    ← Nat.div_div_eq_div_mul]
  interval_cases k <;> omega

/-- A register whose limbs stand at the four offsets from `base` on lies in the window byte by byte, the least significant
first (rule R43). -/
theorem windowByte_register {base : Nat} {s : State} {l : Limbs4} (halign : base % 8 = 0) (hbase : base + 32 ≤ 256)
    (hread : ∀ i : Fin 4, readWord (BitVec.ofNat 8 (base + 8 * i.val)) s = getLimb l i) {j : Nat} (hj : j < 32) :
    windowByte (Config.BASE + base + j) s = some (BitVec.ofNat 8 (valLimbs4 l / 256 ^ j)) := by
  have hreg : (base + j) / 8 * 8 = base + 8 * (j / 8) := by omega
  have hlane : (base + j) % 8 = j % 8 := by omega
  have hbyte := byteLane_getLimb l ⟨j / 8, by omega⟩ (Nat.mod_lt j (by decide : 0 < 8))
  rw [Nat.add_assoc, windowByte_at (by omega), hreg, hlane, hread ⟨j / 8, by omega⟩, hbyte, Nat.div_add_mod]

/-- Settles O19: the four registers stand at their offsets limb by limb. -/
theorem windowBytesAreLittleEndian : Obligations.WindowBytesAreLittleEndian := by
  refine ⟨fun s j hj => ⟨?_, ?_, ?_, ?_⟩, fun s addr h => windowByte_of_outside h s⟩
  · exact windowByte_register (base := 0) (by decide) (by decide) (fun i => by fin_cases i <;> rfl) hj
  · exact windowByte_register (by decide) (by decide) (fun i => by fin_cases i <;> rfl) hj
  · exact windowByte_register (by decide) (by decide) (fun i => by fin_cases i <;> rfl) hj
  · rw [← valLimbs4_ofNatLimbs4_of_lt Config.P_lt]
    exact windowByte_register (by decide) (by decide) (fun i => by fin_cases i <;> rfl) hj

/-! ### What a completion leaves in the window (rules R62, R81) -/

/-- States with the same A and B read alike everywhere but in `STATUS` and, unless they hold the same R, in R. -/
theorem readWord_congr {s t : State} {off : BitVec 8} (ha : t.a = s.a) (hb : t.b = s.b)
    (hr : ∀ i, windowReg off = .r i → t.r = s.r) (hstatus : windowReg off ≠ .status) : readWord off t = readWord off s := by
  unfold readWord busRead
  cases hreg : windowReg off with
  | a i => simp only [ha]
  | b i => simp only [hb]
  | r i => simp only [hr i hreg]
  | status => exact absurd hreg hstatus
  | cmd => rfl
  | modulus i => rfl
  | reserved => rfl

/-- The byte form of `readWord_congr`, by address. -/
theorem windowByte_congr {s t : State} {addr : Nat} (ha : t.a = s.a) (hb : t.b = s.b)
    (hr : t.r = s.r ∨ addr < Config.BASE + 0x40 ∨ Config.BASE + 0x60 ≤ addr)
    (hstatus : addr < Config.BASE + 0x68 ∨ Config.BASE + 0x70 ≤ addr) : windowByte addr t = windowByte addr s := by
  by_cases hin : Config.BASE ≤ addr ∧ addr < Config.BASE + 256
  · obtain ⟨o, rfl⟩ := Nat.exists_eq_add_of_le hin.1
    have ho : o < 256 := by omega
    have hoff : (BitVec.ofNat 8 (o / 8 * 8)).toNat = o / 8 * 8 := by
      rw [BitVec.toNat_ofNat, Nat.mod_eq_of_lt (by omega)]
    rw [windowByte_at ho, windowByte_at ho, readWord_congr ha hb]
    · intro i hreg
      have := toNat_of_windowReg_r hreg
      exact hr.resolve_right (by omega)
    · intro hreg
      have := toNat_of_windowReg_status hreg
      omega
  · rw [windowByte_of_outside (by omega), windowByte_of_outside (by omega)]

/-- Settles O31: a completion writes one of R, `EQ` and `ERR`, and the window's other bytes follow from A, B and R. -/
theorem completionFrame : Obligations.CompletionFrame := by
  intro s t i h
  have hfeq : i = .feq → t.r = s.r := by
    obtain ⟨hi, v, rfl⟩ | ⟨-, -, -, rfl⟩ | ⟨c, rfl⟩ := exec_next h
    · exact fun hi' => absurd hi' hi
    · exact fun _ => rfl
    · exact fun _ => rfl
  have hregs : t.a = s.a ∧ t.b = s.b := by
    obtain ⟨v, rfl⟩ | ⟨e, rfl⟩ | ⟨c, rfl⟩ := exec_cases h <;> exact ⟨rfl, rfl⟩
  obtain ⟨ha, hb⟩ := hregs
  refine ⟨?_, ?_, hfeq, ?_, fun addr hr hstatus => windowByte_congr ha hb (.inr hr) hstatus,
    fun hi addr hstatus => windowByte_congr ha hb (.inl (hfeq hi)) hstatus⟩
  · obtain ⟨v, rfl⟩ | ⟨e, rfl⟩ | ⟨c, rfl⟩ := exec_cases h <;> rfl
  · obtain ⟨-, v, rfl⟩ | ⟨rfl, -⟩ | ⟨c, rfl⟩ := exec_next h
    · exact fun _ => rfl
    · exact fun hi => absurd rfl hi
    · exact fun _ => rfl
  · obtain ⟨v, rfl⟩ | ⟨e, rfl⟩ | ⟨c, rfl⟩ := exec_cases h
    · exact fun herr => absurd rfl herr
    · exact fun herr => absurd rfl herr
    · exact fun _ => ⟨rfl, rfl⟩

end Sys2Proof.Machine

namespace Sys2Proof.Machine

open Sys2Proof

/-! ### The wide product and the reducer (rules R93 to R95, R107, R108) -/

/-- Settles O37: the accumulator keeps its length, and each round adds its limb's share of the product. -/
theorem wideProductIsExact : Obligations.WideProductIsExact := fun a b =>
  ⟨mulLimbs_length a b, limbsVal_mulLimbs a b⟩

/-- Settles O38: the loop starts at a multiple of `P` whose double exceeds every `x`, and each step keeps the remainder. -/
theorem reducerIsRemainder : Obligations.ReducerIsRemainder := fun _ _ hpos hP hx => reduceP_eq_mod hpos hP hx

/-! ### The end of the Euclid loop, and its corner values (rules R119, R124) -/

/-- A remainder of 0 ends the loop, however many iterations are left. -/
theorem euclidLoop_remainder_zero (fuel : Nat) (oldR oldT t : Int) : euclidLoop fuel oldR 0 oldT t = oldT := by
  cases fuel with
  | zero => rfl
  | succ fuel => exact if_pos rfl

/-- With as many iterations as the remainder is large the loop has ended: each takes at least one off it (rule R119). -/
theorem euclidLoop_add_fuel (fuel k : Nat) {oldR r oldT t : Int} (hr : 0 ≤ r) (hfuel : r ≤ fuel) :
    euclidLoop (fuel + k) oldR r oldT t = euclidLoop fuel oldR r oldT t := by
  induction fuel generalizing oldR r oldT t with
  | zero =>
    obtain rfl : r = 0 := le_antisymm hfuel hr
    rw [euclidLoop_remainder_zero, euclidLoop_remainder_zero]
  | succ fuel ih =>
    rw [Nat.succ_add, euclidLoop, euclidLoop]
    split
    next => rfl
    next hne =>
      have hmod : oldR - oldR / r * r = oldR % r := by rw [mul_comm, ← Int.emod_def]
      have hnonneg := Int.emod_nonneg oldR hne
      have hlt := Int.emod_lt_of_pos oldR (lt_of_le_of_ne hr (Ne.symm hne))
      rw [hmod, ih hnonneg (by omega)]

/-- Settles O46: the loop starts at the remainder `a`, so `a` iterations are enough. -/
theorem euclidTerminates : Obligations.EuclidTerminates := fun _ a k =>
  euclidLoop_add_fuel a k (Int.natCast_nonneg a) le_rfl

/-- `-1` is its own inverse. -/
theorem pred_mul_pred_mod {P : Nat} (hP : 1 < P) : (P - 1) * (P - 1) % P = 1 := by
  obtain ⟨m, rfl⟩ := Nat.exists_eq_add_of_le hP
  have hsq : (2 + m - 1) * (2 + m - 1) = (2 + m) * m + 1 := by
    rw [show 2 + m - 1 = m + 1 by omega]
    ring
  rw [show Nat.succ 1 + m = 2 + m from rfl, hsq, Nat.mul_add_mod, Nat.mod_eq_of_lt (by omega)]

/-- Half of `P + 1` is the inverse of 2 at an odd modulus. -/
theorem two_mul_half_succ_mod {P : Nat} (hP : 1 < P) (hodd : P % 2 = 1) : 2 * ((P + 1) / 2) % P = 1 := by
  rw [show 2 * ((P + 1) / 2) = P + 1 by omega, Nat.add_mod_left, Nat.mod_eq_of_lt hP]

/-- The signs of two factors cancel mod `P`. -/
theorem sub_mul_sub_mod {P a b : Nat} (ha : a ≤ P) (hb : b ≤ P) : (P - a) * (P - b) % P = a * b % P := by
  have hexp : ((P : Int) - a) * (P - b) = a * b + P * (P - a - b) := by ring
  zify [ha, hb]
  rw [hexp, Int.add_mul_emod_self_left]

section
variable {P a : Nat} (hP : P.Prime) (hpos : 0 < a) (ha : a < P)
include hP hpos ha

theorem finv_finv : finv P (finv P a) = a :=
  have hinv : finv P a * a % P = 1 := mul_comm a _ ▸ mul_finv_mod ha hP hpos
  (eq_finv_of_mul_mod_eq_one (finv_lt ha) hP (finv_pos ha hP hpos) ha hinv).symm

theorem finv_fneg (hbound : P < 2 ^ 256) : finv P (fneg P a) = fneg P (finv P a) := by
  have hv := finv_lt ha
  have hvpos := finv_pos ha hP hpos
  rw [fneg_eq hbound ha, if_neg hpos.ne', fneg_eq hbound hv, if_neg hvpos.ne']
  refine (eq_finv_of_mul_mod_eq_one (by omega) hP (by omega) (by omega) ?_).symm
  rw [sub_mul_sub_mod ha.le hv.le, mul_finv_mod ha hP hpos]

end

/-- Settles O44: each value is an inverse below `P`, and there is only one. -/
theorem finvCornerValues : Obligations.FinvCornerValues := by
  intro P ⟨hP, hthree, hbound⟩
  have hodd : P % 2 = 1 := hP.eq_two_or_odd.resolve_left (by omega)
  refine ⟨?_, ?_, ?_, fun a hpos ha => ⟨finv_finv hP hpos ha, finv_fneg hP hpos ha hbound⟩⟩
  · exact (eq_finv_of_mul_mod_eq_one (by omega) hP (by omega) (by omega) (Nat.mod_eq_of_lt (by omega))).symm
  · exact (eq_finv_of_mul_mod_eq_one (by omega) hP (by omega) (by omega) (pred_mul_pred_mod (by omega))).symm
  · exact (eq_finv_of_mul_mod_eq_one (by omega) hP (by omega) (by omega)
      (two_mul_half_succ_mod (by omega) hodd)).symm

end Sys2Proof.Machine

namespace Sys2Proof.Machine

open Sys2Proof

/-! ### What an access leaves alone (rules R18, R24, R39, R78) -/

/-- What no access writes: R, `EQ` and the turns that wait. -/
structure AccessFrame (s t : State) : Prop where
  r_eq : t.r = s.r
  eq_eq : t.eq = s.eq
  agenda_eq : t.agenda = s.agenda

/-- What no access writes while a command is in flight: the latches, R and `STATUS` but for `OVR`. -/
structure InFlightFrame (s t : State) : Prop where
  busy_eq : t.busy = s.busy
  la_eq : t.la = s.la
  lb_eq : t.lb = s.lb
  lop_eq : t.lop = s.lop
  r_eq : t.r = s.r
  eq_eq : t.eq = s.eq
  err_eq : t.err = s.err
  lastop_eq : t.lastop = s.lastop

theorem InFlightFrame.refl (s : State) : InFlightFrame s s := ⟨rfl, rfl, rfl, rfl, rfl, rfl, rfl, rfl⟩

theorem InFlightFrame.trans {s t u : State} (h : InFlightFrame s t) (h' : InFlightFrame t u) : InFlightFrame s u where
  busy_eq := h'.busy_eq.trans h.busy_eq
  la_eq := h'.la_eq.trans h.la_eq
  lb_eq := h'.lb_eq.trans h.lb_eq
  lop_eq := h'.lop_eq.trans h.lop_eq
  r_eq := h'.r_eq.trans h.r_eq
  eq_eq := h'.eq_eq.trans h.eq_eq
  err_eq := h'.err_eq.trans h.err_eq
  lastop_eq := h'.lastop_eq.trans h.lastop_eq

theorem accept_frame (w : Word) (s : State) : AccessFrame s (accept w s) := by
  obtain ⟨i, -, h⟩ | ⟨e, -, h⟩ := accept_cases w s <;> rw [h] <;> exact ⟨rfl, rfl, rfl⟩

theorem cmdWrite_frame (w : Word) (s : State) : AccessFrame s (cmdWrite w s) := by
  obtain ⟨-, h⟩ | ⟨-, h⟩ := cmdWrite_cases w s <;> rw [h]
  · exact ⟨rfl, rfl, rfl⟩
  · exact accept_frame w s

theorem busWrite_frame (off : BitVec 8) (d : Word) (s : State) : AccessFrame s (busWrite off d s) := by
  obtain ⟨i, -, h⟩ | ⟨i, -, h⟩ | ⟨-, h⟩ | h := busWrite_cases off d s <;> rw [h]
  · exact ⟨rfl, rfl, rfl⟩
  · exact ⟨rfl, rfl, rfl⟩
  · exact cmdWrite_frame d s
  · exact ⟨rfl, rfl, rfl⟩

theorem busAccess_frame (x : Transaction) (s : State) : AccessFrame s (busAccess x s) := by
  obtain ⟨-, h⟩ | ⟨-, -, h⟩ | ⟨-, -, h⟩ := busAccess_cases x s <;> rw [h]
  · exact ⟨rfl, rfl, rfl⟩
  · exact ⟨rfl, rfl, rfl⟩
  · obtain ⟨hr, heq, hagenda⟩ := busWrite_frame x.off x.data s
    exact ⟨hr, heq, hagenda⟩

/-- While busy a write stores an operand limb, sets `OVR`, or does nothing (rules R72, R77, R78). -/
theorem busWrite_inFlight {s : State} (hbusy : s.busy = true) (off : BitVec 8) (d : Word) :
    InFlightFrame s (busWrite off d s) := by
  obtain ⟨i, -, h⟩ | ⟨i, -, h⟩ | ⟨-, h⟩ | h := busWrite_cases off d s <;> rw [h]
  · exact ⟨rfl, rfl, rfl, rfl, rfl, rfl, rfl, rfl⟩
  · exact ⟨rfl, rfl, rfl, rfl, rfl, rfl, rfl, rfl⟩
  · rw [cmdWrite_of_busy hbusy]
    exact ⟨rfl, rfl, rfl, rfl, rfl, rfl, rfl, rfl⟩
  · exact .refl s

theorem busAccess_inFlight {s : State} (hbusy : s.busy = true) (x : Transaction) :
    InFlightFrame s (busAccess x s) := by
  have hresp (a : Response) (u : State) : InFlightFrame u (respond a u) := ⟨rfl, rfl, rfl, rfl, rfl, rfl, rfl, rfl⟩
  obtain ⟨-, h⟩ | ⟨-, -, h⟩ | ⟨-, -, h⟩ := busAccess_cases x s <;> rw [h]
  · exact hresp _ s
  · exact hresp _ s
  · exact (busWrite_inFlight hbusy x.off x.data).trans (hresp _ _)

theorem busAccesses_inFlight (xs : List Transaction) {s : State} (hbusy : s.busy = true) :
    InFlightFrame s (xs.foldl (fun u x => busAccess x u) s) := by
  induction xs generalizing s with
  | nil => exact .refl s
  | cons x xs ih =>
    have hx := busAccess_inFlight hbusy x
    exact hx.trans (ih (hx.busy_eq.trans hbusy))

/-- What a completion leaves in R, `EQ`, `ERR` and `BUSY` depends on the latches and on R, `EQ` and `ERR` alone. -/
theorem exec_inFlight (i : Instr) {s t : State} (h : InFlightFrame s t) :
    ∃ u v, exec i s = .next u ∧ exec i t = .next v ∧ v.r = u.r ∧ v.eq = u.eq ∧ v.err = u.err ∧ v.busy = u.busy := by
  refine ⟨_, _, exec_eq_commandResult i s, exec_eq_commandResult i t, ?_⟩
  rw [h.la_eq, h.lb_eq]
  cases commandResult Config.P i s.la.toNat s.lb.toNat with
  | val v => exact ⟨rfl, h.eq_eq, h.err_eq, rfl⟩
  | flag e => exact ⟨h.r_eq, rfl, h.err_eq, rfl⟩
  | err c => exact ⟨h.r_eq, h.eq_eq, rfl, rfl⟩

/-- Settles O55: each access keeps what is in flight, so a list of them does, and the completion reads nothing else. -/
theorem commandInFlightIsUndisturbed : Obligations.CommandInFlightIsUndisturbed := by
  intro s xs i hbusy
  have h := busAccesses_inFlight xs hbusy
  exact ⟨h.busy_eq.trans hbusy, h.la_eq, h.lb_eq, h.lop_eq, h.r_eq, h.eq_eq, h.err_eq, h.lastop_eq, exec_inFlight i h⟩

/-! ### Every step is enabled, and a command in flight completes (rules R40, R85, R86) -/

/-- The latched opcode of a command in flight is that of a command (rule R40). -/
theorem CommandInv.exists_lop_eq {s : State} (h : CommandInv s) (hbusy : s.busy = true) : ∃ i, s.lop = opcodeOf i := by
  obtain ⟨i, hi⟩ := Option.isSome_iff_exists.mp ((decodeOp_isSome s.lop).mpr (h.lop_legal hbusy))
  exact ⟨i, decodeOp_some hi⟩

/-- The core's turn goes on in an idle block and with a legal opcode latched. -/
theorem exists_completionStep_next {s : State} (h : s.busy = true → ∃ i, s.lop = opcodeOf i) :
    ∃ t, completionStep s = .next t := by
  cases hbusy : s.busy with
  | false => exact ⟨s, completionStep_of_idle hbusy⟩
  | true =>
    obtain ⟨i, hi⟩ := h hbusy
    exact ⟨_, (completionStep_of_busy hbusy hi).trans (exec_eq_commandResult i s)⟩

/-- Settles O50: accesses and resets always go on, and under the invariant the core's turn does. -/
theorem noStuckState : Obligations.NoStuckState := by
  intro s h
  obtain ⟨-, hs⟩ | ⟨x, ts, -, hs⟩ | ⟨ts, -, hs⟩ := step_cases s
  · rw [hs]
    exact exists_completionStep_next (s := setAgenda s.agenda.tail s) h.exists_lop_eq
  · exact ⟨_, hs⟩
  · exact ⟨_, hs⟩

/-- With a command in flight and no reset waiting, the accesses that wait are performed and then the core moves. -/
theorem exists_run_coreMovesNext {s : State} (hbusy : s.busy = true) (hreset : Turn.reset ∉ s.agenda) :
    ∃ k t, k ≤ s.agenda.length ∧ Host.Core.run core k s = .next t ∧ InFlightFrame s t ∧ coreMovesNext t = true := by
  generalize hagenda : s.agenda = ts at hreset
  induction ts generalizing s with
  | nil => exact ⟨0, s, Nat.zero_le _, run_zero s, .refl s, coreMovesNext_of_nil hagenda⟩
  | cons x ts ih =>
    cases x with
    | core => exact ⟨0, s, Nat.zero_le _, run_zero s, .refl s, coreMovesNext_of_core hagenda⟩
    | reset => exact absurd List.mem_cons_self hreset
    | access x =>
      have hx : InFlightFrame s (busAccess x (setAgenda ts s)) :=
        InFlightFrame.trans (t := setAgenda ts s) ⟨rfl, rfl, rfl, rfl, rfl, rfl, rfl, rfl⟩
          (busAccess_inFlight (s := setAgenda ts s) hbusy x)
      obtain ⟨k, t, hk, hrun, ht, hmove⟩ := ih (hx.busy_eq.trans hbusy) (busAccess_frame x _).agenda_eq
        fun hmem => hreset (List.mem_cons_of_mem _ hmem)
      have hstep := step_of_access hagenda
      exact ⟨k + 1, t, Nat.succ_le_succ hk, (run_succ_next (M := core) k hstep).trans hrun, hx.trans ht, hmove⟩

/-- Settles O51: after the accesses that wait the core moves, with the command as it was latched. -/
theorem commandCompletes : Obligations.CommandCompletes := by
  intro s hinv hbusy hreset
  obtain ⟨i, hlop⟩ := hinv.exists_lop_eq hbusy
  obtain ⟨k, t, hk, hrun, ht, hmove⟩ := exists_run_coreMovesNext hbusy hreset
  have hstep := stepRunsLatchedCommand t i hmove (ht.busy_eq.trans hbusy) (ht.lop_eq.trans hlop)
  have hnext := exec_eq_commandResult i (setAgenda t.agenda.tail t)
  exact ⟨k, t, _, i, hk, hrun, ht.busy_eq.trans hbusy, ht.la_eq, ht.lb_eq, ht.lop_eq, hlop, ht.r_eq, ht.eq_eq, hstep,
    hstep.trans hnext, exec_busy hnext⟩

/-! ### What changes R and `EQ`, and what a reset leaves (rules R18, R24, R141 to R143) -/

/-- Settles O52: an access leaves R; the core's turn changes it only as a completion that writes a value. -/
theorem resultChangesOnlyByCompletion : Obligations.ResultChangesOnlyByCompletion := by
  intro s t h hne
  obtain ⟨hmove, hc⟩ | ⟨x, ts, -, rfl⟩ | ⟨ts, ha, rfl⟩ := step_next h
  · obtain ⟨-, rfl⟩ | ⟨i, hbusy, hlop, he⟩ := completionStep_next hc
    · exact absurd rfl hne
    · obtain ⟨hi, v, rfl⟩ | ⟨-, -, -, rfl⟩ | ⟨c, rfl⟩ := exec_next he
      · exact .inr ⟨i, hmove, hbusy, hlop, hi, rfl, rfl⟩
      · exact absurd rfl hne
      · exact absurd rfl hne
  · exact absurd (busAccess_frame x (setAgenda ts s)).r_eq hne
  · exact .inl ⟨ts, ha, rfl⟩

/-- A step that changes `EQ` is a reset or the completion of an FEQ on canonical operands. -/
theorem step_changes_eq {s t : State} (h : step s = .next t) (hne : t.eq ≠ s.eq) :
    (∃ ts, s.agenda = .reset :: ts) ∨
    (coreMovesNext s = true ∧ s.busy = true ∧ s.lop = opcodeOf .feq ∧
      s.la.toNat < Config.P ∧ s.lb.toNat < Config.P) := by
  obtain ⟨hmove, hc⟩ | ⟨x, ts, -, rfl⟩ | ⟨ts, ha, -⟩ := step_next h
  · obtain ⟨-, rfl⟩ | ⟨i, hbusy, hlop, he⟩ := completionStep_next hc
    · exact absurd rfl hne
    · obtain ⟨-, v, rfl⟩ | ⟨rfl, ha, hb, -⟩ | ⟨c, rfl⟩ := exec_next he
      · exact absurd rfl hne
      · exact .inr ⟨hmove, hbusy, hlop, ha, hb⟩
      · exact absurd rfl hne
  · exact absurd (busAccess_frame x (setAgenda ts s)).eq_eq hne
  · exact .inl ⟨ts, ha⟩

/-- Settles O53: the completion of an FEQ writes its comparison, a reset clears the flag, and no other step changes it. -/
theorem equalityFlagChanges : Obligations.EqualityFlagChanges := by
  refine fun s t h => ⟨fun hmove hbusy hlop ha hb => ?_, fun ⟨ts, hreset⟩ => ?_, step_changes_eq h⟩
  · rw [stepRunsLatchedCommand s .feq hmove hbusy hlop, feqCompares (setAgenda s.agenda.tail s) ha hb] at h
    cases h
    rfl
  · rw [step_reset hreset h, resetBlock_eq]

/-- After a reset `STATUS` reads 0 (rule R141). -/
theorem readWord_status_resetBlock (s : State) : readWord 0x68 (resetBlock s) = 0 := by
  apply BitVec.eq_of_toNat_eq
  rw [readWord_status, statusWord_toNat]
  rfl

/-- Settles O57: the step is `resetBlock`, whose idle block the core's turn leaves as it is. -/
theorem resetAbortsTheCommand : Obligations.ResetAbortsTheCommand := fun s ts h =>
  ⟨resetBlock (setAgenda ts s), step_of_reset h, rfl, rfl, rfl, rfl, rfl, rfl, rfl, rfl, rfl,
    readWord_status_resetBlock _, completionStep_of_idle rfl, rfl, rfl, rfl, rfl⟩

end Sys2Proof.Machine

namespace Sys2Proof.Machine

open Sys2Proof

/-! ### Host scripts (rules R70, R71) -/

theorem hostSteps_add (p : Script) (m n : Nat) (h : HostState) (s : State) :
    hostSteps p (m + n) h s = hostSteps p n (hostSteps p m h s).1 (hostSteps p m h s).2 := by
  induction m generalizing h s with
  | zero => rw [Nat.zero_add, hostSteps]
  | succ m ih => rw [Nat.succ_add, hostSteps, hostSteps, ih]

theorem line_of_drop {p rest : Script} {n : Nat} {op : HostOp} (h : p.drop n = op :: rest) : p[n]? = some op := by
  rw [← List.head?_drop, h, List.head?_cons]

theorem drop_succ_of_drop {p rest : Script} {n : Nat} {op : HostOp} (h : p.drop n = op :: rest) :
    p.drop (n + 1) = rest := by
  rw [← List.tail_drop, h, List.tail_cons]

section
variable {p rest : Script} {n : Nat} {off : BitVec 8} (k : Nat) (vs : List (Nat × Word)) (s : State)

/-- A line that reads an aligned offset into a variable. -/
theorem hostSteps_read {x : Nat} (h : p.drop n = .r off x :: rest) (halign : off.toNat % 8 = 0) :
    hostSteps p (k + 1) ⟨n, vs⟩ s =
      hostSteps p k ⟨n + 1, (x, readWord off s) :: vs⟩ (respond (.data (readWord off s)) s) := by
  simp only [hostSteps, hostStep, line_of_drop h, hostTransaction, hostEffect, hostAssign, hostAdvance,
    busAccess_read halign, respond_response, responseData]

/-- A line that writes an aligned offset. -/
theorem hostSteps_write {v : HostValue} (h : p.drop n = .w off v :: rest) (halign : off.toNat % 8 = 0) :
    hostSteps p (k + 1) ⟨n, vs⟩ s =
      hostSteps p k ⟨n + 1, vs⟩ (respond .done (busWrite off (hostValue ⟨n, vs⟩ v) s)) := by
  simp only [hostSteps, hostStep, line_of_drop h, hostTransaction, hostEffect, hostAdvance, busAccess_write halign]

end

/-- The variables after four reads into `x` to `x + 3`, the newest first. -/
def readVars (x : Nat) (l : Limbs4) (vs : List (Nat × Word)) : List (Nat × Word) :=
  (x + 3, l.l3) :: (x + 2, l.l2) :: (x + 1, l.l1) :: (x, l.l0) :: vs

/-- The four variables hold the limbs that were read. -/
theorem hostVar_readVars (x n : Nat) (l : Limbs4) (vs : List (Nat × Word)) :
    hostVar ⟨n, readVars x l vs⟩ x = l.l0 ∧ hostVar ⟨n, readVars x l vs⟩ (x + 1) = l.l1 ∧
    hostVar ⟨n, readVars x l vs⟩ (x + 2) = l.l2 ∧ hostVar ⟨n, readVars x l vs⟩ (x + 3) = l.l3 := by
  have hne (m : Nat) : (x == x + (m + 1)) = false := beq_eq_false_iff_ne.mpr (by omega)
  simp [hostVar, readVars, List.lookup, hne]

theorem hostWide_readVars (x n : Nat) (l : Limbs4) (vs : List (Nat × Word)) :
    hostWide ⟨n, readVars x l vs⟩ x = valLimbs4 l := by
  obtain ⟨h0, h1, h2, h3⟩ := hostVar_readVars x n l vs
  rw [hostWide, h0, h1, h2, h3]

section
variable {p rest : Script} {n : Nat} (vs : List (Nat × Word)) (s : State)

variable {o0 o1 o2 o3 : BitVec 8} (halign : ∀ o ∈ [o0, o1, o2, o3], o.toNat % 8 = 0)
include halign

/-- Four reads into consecutive variables, wherever they stand in a script. -/
theorem hostSteps_read_four {x : Nat} {l : Limbs4}
    (h : p.drop n = .r o0 x :: .r o1 (x + 1) :: .r o2 (x + 2) :: .r o3 (x + 3) :: rest)
    (hread : [o0, o1, o2, o3].map (readWord · s) = [l.l0, l.l1, l.l2, l.l3]) :
    hostSteps p 4 ⟨n, vs⟩ s = (⟨n + 4, readVars x l vs⟩, respond (.data l.l3) s) := by
  have h1 := drop_succ_of_drop h
  have h2 := drop_succ_of_drop h1
  have h3 := drop_succ_of_drop h2
  simp only [List.map_cons, List.map_nil, List.cons.injEq] at hread
  obtain ⟨hr0, hr1, hr2, hr3, -⟩ := hread
  rw [hostSteps_read _ _ _ h (halign o0 (by simp)), hostSteps_read _ _ _ h1 (halign o1 (by simp)),
    hostSteps_read _ _ _ h2 (halign o2 (by simp)), hostSteps_read _ _ _ h3 (halign o3 (by simp))]
  simp only [readWord_respond, hr0, hr1, hr2, hr3]
  rfl

variable {v0 v1 v2 v3 : HostValue}

/-- Four writes, wherever they stand in a script. -/
theorem hostSteps_write_four (h : p.drop n = .w o0 v0 :: .w o1 v1 :: .w o2 v2 :: .w o3 v3 :: rest) :
    hostSteps p 4 ⟨n, vs⟩ s = (⟨n + 4, vs⟩,
      respond .done (busWrite o3 (hostValue ⟨n, vs⟩ v3)
        (respond .done (busWrite o2 (hostValue ⟨n, vs⟩ v2)
          (respond .done (busWrite o1 (hostValue ⟨n, vs⟩ v1)
            (respond .done (busWrite o0 (hostValue ⟨n, vs⟩ v0) s)))))))) := by
  have h1 := drop_succ_of_drop h
  have h2 := drop_succ_of_drop h1
  have h3 := drop_succ_of_drop h2
  rw [hostSteps_write _ _ _ h (halign o0 (by simp)), hostSteps_write _ _ _ h1 (halign o1 (by simp)),
    hostSteps_write _ _ _ h2 (halign o2 (by simp)), hostSteps_write _ _ _ h3 (halign o3 (by simp))]
  rfl

end

section
variable {p rest : Script} {n : Nat} (vs : List (Nat × Word)) (s : State)

/-- The four reads of `RDR`. -/
theorem hostSteps_scriptRDR {x : Nat} (h : p.drop n = scriptRDR x ++ rest) :
    hostSteps p 4 ⟨n, vs⟩ s = (⟨n + 4, readVars x s.r vs⟩, respond (.data s.r.l3) s) :=
  hostSteps_read_four vs s (by simp) h rfl

/-- The four reads of `RDMOD`. -/
theorem hostSteps_scriptRDMOD {x : Nat} (h : p.drop n = scriptRDMOD x ++ rest) :
    hostSteps p 4 ⟨n, vs⟩ s =
      (⟨n + 4, readVars x (ofNatLimbs4 Config.P) vs⟩, respond (.data (ofNatLimbs4 Config.P).l3) s) :=
  hostSteps_read_four vs s (by simp) h rfl

variable {v0 v1 v2 v3 : HostValue}

/-- Four writes fill A limb by limb. -/
theorem hostSteps_writeA (h : p.drop n = .w 0x00 v0 :: .w 0x08 v1 :: .w 0x10 v2 :: .w 0x18 v3 :: rest) :
    hostSteps p 4 ⟨n, vs⟩ s = (⟨n + 4, vs⟩, { s with
      a := ⟨hostValue ⟨n, vs⟩ v0, hostValue ⟨n, vs⟩ v1, hostValue ⟨n, vs⟩ v2, hostValue ⟨n, vs⟩ v3⟩
      response := some .done }) := by
  rw [hostSteps_write_four vs s (by simp) h, busWrite_of_a (i := 3) rfl, busWrite_of_a (i := 2) rfl,
    busWrite_of_a (i := 1) rfl, busWrite_of_a (i := 0) rfl]
  rfl

/-- Four writes fill B limb by limb. -/
theorem hostSteps_writeB (h : p.drop n = .w 0x20 v0 :: .w 0x28 v1 :: .w 0x30 v2 :: .w 0x38 v3 :: rest) :
    hostSteps p 4 ⟨n, vs⟩ s = (⟨n + 4, vs⟩, { s with
      b := ⟨hostValue ⟨n, vs⟩ v0, hostValue ⟨n, vs⟩ v1, hostValue ⟨n, vs⟩ v2, hostValue ⟨n, vs⟩ v3⟩
      response := some .done }) := by
  rw [hostSteps_write_four vs s (by simp) h, busWrite_of_b (i := 3) rfl, busWrite_of_b (i := 2) rfl,
    busWrite_of_b (i := 1) rfl, busWrite_of_b (i := 0) rfl]
  rfl

end

/-- Settles O58: a load is four writes, and a copy is the reads of `RDR` and then four writes of the variables they
filled. -/
theorem scriptsLoadOperands : Obligations.ScriptsLoadOperands := by
  intro s vs v x
  obtain ⟨h0, h1, h2, h3⟩ := hostVar_readVars x 4 s.r vs
  refine ⟨?_, ?_, ?_, ?_, ?_, ?_⟩
  · rw [hostSteps_writeA (p := scriptLDA v) (rest := []) vs s rfl]
    rfl
  · rw [hostSteps_writeB (p := scriptLDB v) (rest := []) vs s rfl]
    rfl
  · rw [hostSteps_add _ 4 4, hostSteps_scriptRDR vs s rfl, hostSteps_writeA (rest := []) _ _ rfl]
    simp only [hostValue, Nat.zero_add, h0, h1, h2, h3]
    rfl
  · rw [hostSteps_add _ 4 4, hostSteps_scriptRDR vs s rfl, hostSteps_writeB (rest := []) _ _ rfl]
    simp only [hostValue, Nat.zero_add, h0, h1, h2, h3]
    rfl
  · rw [hostSteps_scriptRDR (rest := []) vs s (List.append_nil _).symm, hostWide_readVars]
  · rw [hostSteps_scriptRDMOD (rest := []) vs s (List.append_nil _).symm, hostWide_readVars,
      valLimbs4_ofNatLimbs4_of_lt Config.P_lt]

/-- The mask of `POLL` picks `BUSY` out of `STATUS` (rules R22, R23). -/
theorem statusWord_and_one (s : State) : statusWord s &&& 0x1 ≠ 0 ↔ s.busy = true := by
  have hbit : (statusWord s &&& 0x1).toNat = s.busy.toNat := by
    rw [BitVec.toNat_and, show (0x1 : Word).toNat = 1 from rfl, Nat.and_one_is_mod, statusWord_toNat]
    have hbusy := s.busy.toNat_lt
    omega
  rw [Ne, ← BitVec.toNat_inj, hbit]
  cases s.busy <;> decide

/-- The label line and the read of a pass of `POLL`. -/
theorem hostSteps_scriptPOLL_read (x l : Nat) (vs : List (Nat × Word)) (s : State) :
    hostSteps (scriptPOLL x l) 2 ⟨0, vs⟩ s =
      (⟨2, (x, readWord 0x68 s) :: vs⟩, respond (.data (readWord 0x68 s)) s) :=
  hostSteps_read (n := 1) 0 vs s rfl rfl

/-- The branch of a pass of `POLL`: back to the label while the variable shows a set bit 0. -/
theorem hostSteps_scriptPOLL_branch (x l : Nat) (vs : List (Nat × Word)) (s : State) :
    hostSteps (scriptPOLL x l) 1 ⟨2, vs⟩ s = (if hostVar ⟨2, vs⟩ x &&& 0x1 ≠ 0 then ⟨0, vs⟩ else ⟨3, vs⟩, s) := by
  have hlabel : labelLine (scriptPOLL x l) l = 0 := by simp [labelLine, scriptPOLL, List.findIdx_cons]
  rw [← hlabel]
  rfl

/-- Settles O59: a pass is its label, the read and the branch, which is taken while the read shows `BUSY`. -/
theorem scriptPollsWhileBusy : Obligations.ScriptPollsWhileBusy := by
  intro s vs x l
  have hvar : hostVar ⟨2, (x, statusWord s) :: vs⟩ x = statusWord s := by simp [hostVar]
  rw [hostSteps_add _ 2 1, hostSteps_scriptPOLL_read, hostSteps_scriptPOLL_branch, readWord_status, hvar]
  simp only [statusWord_and_one]
  split <;> rfl

end Sys2Proof.Machine
